-- ==== Sys2Proof/Word.lean ====
section
/-! DEFINITION. The data types of the core: the 32-bit word and the byte (00_scope.md R5, R9).
Arithmetic on words stands in Machine/Ops.lean, byte order in Machine/Operands.lean. -/

namespace Sys2Proof

/-- A word: "a fixed-width unsigned integer unit (32 bits in the supported profile)" (R9). -/
abbrev Word := BitVec 32

/-- A byte: a value in 0 .. 255 (R9). -/
abbrev Byte := BitVec 8

end Sys2Proof
end

