-- ==== Sys2Proof/Config.lean ====
section
/-! DEFINITION. What is fixed when a core is built (00_scope.md R5 to R8, 10_state.md R29), and the
values the spec leaves open, as constants with no body: no proof can see what they are. -/

namespace Sys2Proof

/-- The source's Configuration: the parameters the builder chooses (R6, R7).  `W`, `U`, `C`, `T`
are functions of them and stand in Machine/Params.lean. -/
structure Configuration where
  /-- number of rounds (R6) -/
  R : Nat
  /-- length of the raw key in bytes (R7) -/
  KB : Nat
  deriving DecidableEq, Repr

/-- The reference profile: 12 rounds, 16 key bytes (R6, R7). -/
def Configuration.reference : Configuration := { R := 12, KB := 16 }

/-- The default width of the `len` field (R61). -/
def defaultLenw : Nat := 8

/-- Free value (log entry 3): the `n`-th word drawn where the spec says "unspecified" (R34). -/
opaque Config.freeWord : Nat → Word

/-- Free value (log entry 3): the `n`-th counter drawn where the spec says "unspecified" (R34);
its user reduces it to the counter's range (R25, R27). -/
opaque Config.freeCount : Nat → Nat

/-- Free value (log entry 4): entry `n` of a register file that has no entry `n`.  R47 shows that no
such access exists on a core; only a state that no run reaches meets it. -/
opaque Config.absentWord : Nat → Word

/-- Free value (log entry 4): byte `n` of a payload that has no byte `n`.  Every length is checked
before a byte is read (R46), so no operation meets it. -/
opaque Config.absentByte : Nat → Byte

end Sys2Proof
end

