-- ==== Sys2Proof/Syntax.lean ====
section
/-! DEFINITION. The operations of the core (30_encoding.md R60) and the command frame (R61). -/

namespace Sys2Proof

/-- One constructor per row of spec/opcode_table.json. -/
inductive Instr where
  /-- `CONFIG w, r, kb`: evaluated when a core is built, on three integers (R67, R80) -/
  | config (w r kb : Int)
  /-- `KEYLOAD key`, opcode 01 (R90) -/
  | keyload (key : List Byte)
  /-- `ENCRYPT din`, opcode 10 (R110) -/
  | encrypt (din : List Byte)
  /-- `DECRYPT din`, opcode 11 (R111) -/
  | decrypt (din : List Byte)
  /-- opcode 00, reserved (R66): no operation, but a frame the host can form -/
  | reserved (payload : List Byte)
  deriving DecidableEq, Repr

/-- A command frame as the value `(op, payload)` (R61).  Its third field `len` is the payload's length
by definition, so a frame whose `len` disagrees with its payload cannot be written down (U14). -/
structure Frame where
  op : BitVec 2
  payload : List Byte
  deriving DecidableEq, Repr

/-- Why bits or a value are no command frame. -/
inductive DecodeReject where
  /-- the payload has `2 ^ LENW` bytes or more: no `len` field can say so (R61) -/
  | lengthNotExpressible
  /-- fewer bytes follow the header than its `len` field says (R68) -/
  | payloadTruncated
  deriving DecidableEq, Repr

end Sys2Proof
end

