-- ==== Sys2Proof/WellFormed.lean ====
section
/-! DEFINITION. Which instructions can be presented at all: the length of a payload fits the `len` field
of `LENW` bits (30_encoding.md R61). -/

namespace Sys2Proof

/-- "All 256 values of `len` are legal to send for every non-reserved opcode" and "No payload byte value
is illegal" (R66), so the payload's length is all there is to check.  The three integers of `CONFIG`
are "accepted as given" (R80): what they mean is for its meaning to say. -/
def Instr.wellFormed (lenw : Nat) : Instr → Bool
  | .config _ _ _ => true
  | .keyload key => decide (key.length < 2 ^ lenw)
  | .encrypt din => decide (din.length < 2 ^ lenw)
  | .decrypt din => decide (din.length < 2 ^ lenw)
  | .reserved payload => decide (payload.length < 2 ^ lenw)

end Sys2Proof
end

