-- ==== Sys2Proof/Decode.lean ====
section
/-! DEFINITION. From a frame, or from the bits of one, to an instruction, and back (30_encoding.md R61 to
R68).  Every function here is total; what is no frame is rejected by name. -/

namespace Sys2Proof

/-- Header layout (R62): `CH[1:0] = op`, `CH[LENW+1:2] = len`. -/
def packHeader (lenw : Nat) (op : BitVec 2) (len : Nat) : BitVec (lenw + 2) :=
  BitVec.ofNat lenw len ++ op

/-- `CH[1:0]` (R62). -/
def headerOp {lenw : Nat} (ch : BitVec (lenw + 2)) : BitVec 2 := ch.extractLsb' 0 2

/-- `CH[LENW+1:2]`, an unsigned number of payload bytes (R62). -/
def headerLen {lenw : Nat} (ch : BitVec (lenw + 2)) : Nat := (ch.extractLsb' 2 lenw).toNat

/-- A frame is the header followed by exactly `len` payload bytes, in index order (R62, R68): the frame,
and the bytes that follow it. -/
def readFrame {lenw : Nat} (ch : BitVec (lenw + 2)) (bytes : List Byte) :
    Except DecodeReject (Frame × List Byte) :=
  if headerLen ch ≤ bytes.length then
    .ok ({ op := headerOp ch, payload := bytes.take (headerLen ch) }, bytes.drop (headerLen ch))
  else .error .payloadTruncated

/-- The opcode map, complete for the 2-bit field (R63); the payload is the one operand, used whole (R64). -/
def opcodeMap (f : Frame) : Instr :=
  if f.op = 1#2 then .keyload f.payload
  else if f.op = 2#2 then .encrypt f.payload
  else if f.op = 3#2 then .decrypt f.payload
  else .reserved f.payload

/-- The instruction of a presented frame.  A payload too long for the `len` field is no frame (R61). -/
def decode (lenw : Nat) (f : Frame) : Except DecodeReject Instr :=
  if f.payload.length < 2 ^ lenw then .ok (opcodeMap f) else .error .lengthNotExpressible

/-- The instruction of a header and the bytes after it, and the bytes left over. -/
def decodeWire {lenw : Nat} (ch : BitVec (lenw + 2)) (bytes : List Byte) :
    Except DecodeReject (Instr × List Byte) :=
  match readFrame ch bytes with
  | .error e => .error e
  | .ok (f, rest) =>
    match decode lenw f with
    | .error e => .error e
    | .ok i => .ok (i, rest)

/-- The bytes of a number from bit `at'` up, eight bits a byte, the lowest first. -/
def bytesFrom (w at' count : Nat) : List Byte :=
  (List.range count).map fun n => BitVec.ofNat 8 (w >>> (at' + 8 * n))

/-- The header in bits 9:0 of `w`, as spec/opcode_table.json numbers them (`LENW = 8`, R62). -/
def headerOfWord (w : Nat) : BitVec (defaultLenw + 2) := BitVec.ofNat (defaultLenw + 2) w

/-- The instruction whose bits are `w`: the header in bits 9:0 and the payload bytes straight after it, from bit 10
up (log entry 6); bits above `nbits` are 0. -/
def decodeTableWord (nbits w : Nat) : Option Instr :=
  match decodeWire (headerOfWord (w % 2 ^ nbits))
      (bytesFrom (w % 2 ^ nbits) (defaultLenw + 2) (headerLen (headerOfWord (w % 2 ^ nbits)))) with
  | .ok (i, _) => some i
  | .error _ => none

/-- The frame of an instruction (R63, R64).  `CONFIG` has no command encoding (R67). -/
def encode : Instr → Option Frame
  | .config _ _ _ => none
  | .keyload key => some { op := 1#2, payload := key }
  | .encrypt din => some { op := 2#2, payload := din }
  | .decrypt din => some { op := 3#2, payload := din }
  | .reserved payload => some { op := 0#2, payload := payload }

/-- The header of a frame (R62). -/
def frameHeader (lenw : Nat) (f : Frame) : BitVec (lenw + 2) := packHeader lenw f.op f.payload.length

/-- The header and payload bytes of an instruction. -/
def encodeWire (lenw : Nat) (i : Instr) : Option (BitVec (lenw + 2) × List Byte) :=
  (encode i).map fun f => (frameHeader lenw f, f.payload)

end Sys2Proof
end

