-- ==== Sys2Proof/Machine/Operands.lean ====
section
/-! DEFINITION. Operand forms: how a payload's bytes become words and words become bytes (20_memory.md R41
to R43), and the indexed reads and writes of the register files (R45). -/

namespace Sys2Proof.Machine

/-- Byte `n` of a byte sequence (00_scope.md R16). -/
def byteAt (buf : List Byte) (n : Nat) : Byte := buf.getD n (Config.absentByte n)

/-- `MemRead(buf, off, 4)`: the byte at the lowest index is the least significant (R42). -/
def memRead (buf : List Byte) (off : Nat) : Word :=
  (byteAt buf off).setWidth 32 + (byteAt buf (off + 1)).setWidth 32 <<< 8
    + (byteAt buf (off + 2)).setWidth 32 <<< 16 + (byteAt buf (off + 3)).setWidth 32 <<< 24

/-- Byte `n` of a word: `(v div 2^(8n)) mod 256` (R43). -/
def wordByte (v : Word) (n : Nat) : Byte := v.extractLsb' (8 * n) 8

/-- `MemWrite(buf, off, 4, v)`: the least significant byte goes to the lowest index (R43). -/
def memWrite (buf : List Byte) (off : Nat) (v : Word) : List Byte :=
  (((buf.set off (wordByte v 0)).set (off + 1) (wordByte v 1)).set (off + 2) (wordByte v 2)).set (off + 3)
    (wordByte v 3)

/-- The two words of an input block (R42): `A` at offset 0, `B` at offset 4. -/
def loadBlock (din : List Byte) : Word × Word := (memRead din 0, memRead din 4)

/-- The output block `dout[0 .. 7]` of two words (R43); every one of its bytes is written. -/
def storeBlock (AB : Word × Word) : List Byte := memWrite (memWrite (List.replicate 8 0#8) 0 AB.1) 4 AB.2

/-- Read of entry `n` of `S` or `L` (R45). -/
def entry (file : List Word) (n : Nat) : Word := file.getD n (Config.absentWord n)

/-- Write of entry `n` of `S` or `L` (R45). -/
def setEntry (file : List Word) (n : Nat) (v : Word) : List Word := file.set n v

end Sys2Proof.Machine
end

