-- ==== Sys2Proof/Machine/State.lean ====
section
/-! DEFINITION. The state of the machine (10_state.md), its outcomes' reasons, and the state after reset
(R34, R151).  Plain data throughout.  INVENTORY.md lists every field with its rule. -/

namespace Sys2Proof.Machine

/-- `st`, the engine-state register (R21).  `constructing` is held only inside a KEYLOAD, which is one
step (R97), so no step leaves it there. -/
inductive EngineState where
  | unkeyed
  | constructing
  | ready
  deriving DecidableEq, Repr

/-- The three error kinds, a closed list (R130). -/
inductive ErrorKind where
  /-- raised by CONFIG when `w != 32` (R131) -/
  | unsupportedWordSize
  /-- raised by KEYLOAD when `len(key) != KB` (R132) -/
  | unsupportedKeyLength
  /-- raised by ENCRYPT and DECRYPT when `len(din) != 8` (R133) -/
  | invalidPlainTextSize
  deriving DecidableEq, Repr

/-- The result of an operation: success or one of the error kinds (R130).  Its 2-bit code is
`Status.code` in Machine/Flags.lean. -/
inductive Status where
  | ok
  | error (e : ErrorKind)
  deriving DecidableEq, Repr

/-- `RSP`, a response frame (R28, R65).  Its field `rlen` is the length of `data`: `Response.rlen`. -/
structure Response where
  status : Status
  data : List Byte
  deriving DecidableEq, Repr

/-- Whether a core exists.  A core is built by a `CONFIG` that succeeds (R67, R80). -/
inductive Build where
  /-- no `CONFIG` has been evaluated -/
  | notBuilt
  /-- the last `CONFIG` raised this error: no Configuration, so no core exists (R131) -/
  | failed (e : ErrorKind)
  /-- a core with this configuration exists (R29) -/
  | built (c : Configuration)
  deriving DecidableEq, Repr

/-- The registers of the key schedule expander: the expanded key table and the scratch state of KEYLOAD. -/
structure KeyExpander where
  /-- the expanded key table `S[0 .. T-1]` (R22) -/
  S : List Word
  /-- the key words `L[0 .. C-1]` (R23) -/
  L : List Word
  /-- accumulator `a` (R24) -/
  a : Word
  /-- accumulator `b` (R24) -/
  b : Word
  /-- table cursor, `0 .. T-1` (R25) -/
  i : Nat
  /-- key cursor, `0 .. C-1` (R25) -/
  j : Nat
  /-- iteration count, `0 .. NMIX` (R25) -/
  k : Nat
  /-- key byte index of the packing scan, `0 .. KB-1` (R25) -/
  idx : Nat
  deriving DecidableEq, Repr

/-- The registers of the encrypt/decrypt datapath: scratch state of one block operation. -/
structure Datapath where
  /-- data word `A` (R26) -/
  A : Word
  /-- data word `B` (R26) -/
  B : Word
  /-- round counter, `1 .. R` (R27) -/
  r : Nat
  deriving DecidableEq, Repr

/-- One thing the outside world does to the core, between two commands or while one waits (R70, R150). -/
inductive HostAction where
  /-- leave the command port as it is -/
  | hold
  /-- put a frame on the command port, in place of an unaccepted one if there is one (R70) -/
  | present (f : Frame)
  /-- take an unaccepted frame off the command port (R70) -/
  | withdraw
  /-- assert the reset input (R150) -/
  | assertReset
  /-- release the reset input (R150) -/
  | releaseReset
  /-- the builder evaluates `CONFIG` on three integers (R67) -/
  | build (w r kb : Int)
  deriving DecidableEq, Repr

/-- The state of the machine. -/
structure State where
  /-- `LENW`, the width of the `len` field: a parameter of the command format (R61) -/
  lenw : Nat
  /-- the configuration constants, once a core exists (R29) -/
  build : Build
  /-- the engine-state register (R21) -/
  st : EngineState
  /-- the key schedule expander (R22 to R25) -/
  kx : KeyExpander
  /-- the datapath (R26, R27) -/
  dp : Datapath
  /-- `RSP`, the response of the last completed command; `none`: no response pending (R28, R34) -/
  rsp : Option Response
  /-- the reset input is asserted (R150) -/
  inReset : Bool
  /-- the command port: it "carries one frame at a time" (R115, R155) -/
  port : Option Frame
  /-- what the host does next, one action a step, oldest first; `[]`: it holds (R70; log entry 7) -/
  host : List HostAction
  /-- how many free values have been drawn (the model's own; log entry 3) -/
  draws : Nat
  deriving DecidableEq, Repr

/-- Why a step faults: there is no such reason.  "Nothing in this hardware is a fault in the model's sense
(a trap): the three error kinds are ordinary, fully defined results of operations"
(93_implementation_defined.md). -/
inductive Fault where
  deriving DecidableEq, Repr

/-- Why a step is refused.  All are safe: the model stops where the spec gives no behaviour. -/
inductive Refusal where
  /-- raised by exec's arm of an instruction that has no meaning yet; no arm is one now (safe) -/
  | notModelled (mnemonic : String)
  /-- raised by the meaning of opcode 00: "a model refuses it" (R66; safe) -/
  | reservedOpcode
  /-- raised by KEYLOAD, ENCRYPT and DECRYPT where no core has been built: "no machine exists" (R80, R131,
  93_implementation_defined.md U1, U3; safe) -/
  | noCore
  /-- raised by CONFIG on a core that exists: CONFIG is evaluated once, when the core is built, and nothing
  changes the Configuration after that (R60, R83; safe) -/
  | coreAlreadyBuilt
  /-- raised by CONFIG for a parameter set that is not a core of the spec: "a model refuses to build it"
  (R82; safe) -/
  | parametersNotBuildable
  /-- raised by the fetch of a step for a value that is no frame (R61; safe) -/
  | undecodable (why : DecodeReject)
  deriving DecidableEq, Repr

/-- The machine right after reset (R34, R151): a core of the reference profile, `UNKEYED`, no response
pending, nothing on the command port.  Every register the spec leaves "unspecified" stands at the value log
entry 2 names (DESIGN CHOICE, unsafe: no statement may rest on it). -/
def State.reset : State where
  lenw := defaultLenw
  build := .built Configuration.reference
  st := .unkeyed
  kx := { S := List.replicate 26 0#32, L := List.replicate 4 0#32, a := 0#32, b := 0#32, i := 0, j := 0, k := 0,
          idx := 0 }
  dp := { A := 0#32, B := 0#32, r := 1 }
  rsp := none
  inReset := false
  port := none
  host := []
  draws := 0

/-- The same machine before `CONFIG` has been evaluated: no core exists, so it has no registers. -/
def State.unbuilt : State :=
  { State.reset with
    build := .notBuilt
    kx := { State.reset.kx with S := [], L := [] } }

end Sys2Proof.Machine
end

