-- ==== Sys2Proof/Machine/Flags.lean ====
section
/-! DEFINITION. The status of a response.  There are no condition flags (10_state.md R33): the only status a
command leaves is `RSP.status`, with the codes of 60_exceptions.md R130 and the header of 30_encoding.md R65. -/

namespace Sys2Proof.Machine

/-- The 2-bit status code (R130). -/
def Status.code : Status → BitVec 2
  | .ok => 0#2
  | .error .unsupportedWordSize => 1#2
  | .error .unsupportedKeyLength => 2#2
  | .error .invalidPlainTextSize => 3#2

/-- `rlen`, the number of data bytes, 4 bits unsigned (R65). -/
def Response.rlen (ρ : Response) : BitVec 4 := BitVec.ofNat 4 ρ.data.length

/-- The response header: `RH[1:0] = status`, `RH[5:2] = rlen` (R65). -/
def Response.header (ρ : Response) : BitVec 6 := ρ.rlen ++ ρ.status.code

end Sys2Proof.Machine
end

