-- ==== Sys2Proof/Machine/Params.lean ====
section
/-! DEFINITION. The derived parameters of a configuration (00_scope.md R8, 40_configuration.md R80, R81) and
the constraints on what can be built (R82). -/

namespace Sys2Proof

/-- `W`, the width of a word in bits: 32, the only supported value (R5). -/
def Configuration.W (_c : Configuration) : Nat := 32

/-- `U`, bytes per word: `W / 8` (R8). -/
def Configuration.U (c : Configuration) : Nat := c.W / 8

/-- `C`, key words: `KB / U` (R8, R81). -/
def Configuration.C (c : Configuration) : Nat := c.KB / c.U

/-- `T`, words of the expanded key table: `2 * (R + 1)` (R8). -/
def Configuration.T (c : Configuration) : Nat := 2 * (c.R + 1)

/-- `NMIX`, mixing iterations: `3 * T` (R8, R95; 90_conflicts.md C2). -/
def Configuration.NMIX (c : Configuration) : Nat := 3 * c.T

/-- `BLK`, bytes of a block: `2 * U` (R8). -/
def Configuration.BLK (c : Configuration) : Nat := 2 * c.U

/-- The parameter sets a core of the spec can have: `R >= 1`, `KB >= 4`, `KB mod 4 = 0` (R6, R7, R82), and the
two constraints on the command format, `KB < 2^LENW` and `8 < 2^LENW` (R61). -/
def Configuration.legal (lenw : Nat) (c : Configuration) : Bool :=
  decide (1 ≤ c.R) && decide (4 ≤ c.KB) && decide (c.KB % 4 = 0) && decide (c.KB < 2 ^ lenw)
    && decide (8 < 2 ^ lenw)

end Sys2Proof
end

