-- ==== Sys2Proof/Machine/Ops.lean ====
section
/-! DEFINITION. The operations the meanings share: word arithmetic (00_scope.md R10 to R13), answering a
command and raising an error (R139), acceptance (R70, R115, R150), the host's moves on the port (R70) and reset
(R150 to R152). -/

namespace Sys2Proof.Machine

/-- Addition modulo `2^32` (R10). -/
def add32 (x y : Word) : Word := x + y

/-- Subtraction modulo `2^32` (R10). -/
def sub32 (x y : Word) : Word := x - y

/-- Bitwise exclusive-or (R11). -/
def xor32 (x y : Word) : Word := x ^^^ y

/-- Rotate left; the amount is first reduced modulo 32 (R12). -/
def rotl32 (x : Word) (n : Nat) : Word := x.rotateLeft (n % 32)

/-- Rotate right, the inverse of `rotl32` (R13). -/
def rotr32 (x : Word) (n : Nat) : Word := x.rotateRight (n % 32)

/-- The rotate amount a data word gives: its low 5 bits, `v mod 32` (R12, R119). -/
def rotAmount (v : Word) : Nat := v.toNat % 32

/-- The state once a command is answered with `ρ`: the response is the host's, the port is free (R65, R70). -/
def State.answered (ρ : Response) (s : State) : State := { s with rsp := some ρ, port := none }

/-- The state with the datapath registers `A`, `B`, `r` written (R26, R27). -/
def State.setDatapath (d : Datapath) (s : State) : State := { s with dp := d }

/-- `respond`: the operation ends and its response is handed to the host (R65). -/
def respond (ρ : Response) (s : State) : Host.Outcome State Fault Refusal := .next (s.answered ρ)

/-- `raise <Error>`: the operation ends at once, nothing is saved and nothing is changed; only the error
response is produced, with no data (R139, R135).  There is no return from an error (R140). -/
def raise (e : ErrorKind) (s : State) : Host.Outcome State Fault Refusal :=
  respond { status := .error e, data := [] } s

/-- A command that is not accepted: no effect and no response; its frame stays on the port (R70, R115). -/
def wait (s : State) : Host.Outcome State Fault Refusal := .next s

/-- Run an operation on the core that exists.  Without one "no other operation can ever run" (R80). -/
def onCore (s : State) (run : Configuration → Host.Outcome State Fault Refusal) :
    Host.Outcome State Fault Refusal :=
  match s.build with
  | .built c => run c
  | .notBuilt => .refused .noCore
  | .failed _ => .refused .noCore

/-- KEYLOAD is accepted in any state when no command is in progress, and not while reset is asserted (R70, R90,
R150). -/
def State.acceptsKeyload (s : State) : Bool := !s.inReset && decide (s.st ≠ .constructing)

/-- ENCRYPT and DECRYPT are accepted only when `st = READY`, and not while reset is asserted (R115, R150). -/
def State.acceptsBlock (s : State) : Bool := !s.inReset && decide (s.st = .ready)

/-- The words of a register file that reset leaves unspecified: `count` free draws from number `d` (R34). -/
def freeWords (d count : Nat) : List Word := (List.range count).map fun n => Config.freeWord (d + n)

/-- The key expander after reset: every register unspecified, each counter in its range (R34, R25). -/
def freeKeyExpander (c : Configuration) (d : Nat) : KeyExpander where
  S := freeWords d c.T
  L := freeWords (d + c.T) c.C
  a := Config.freeWord (d + c.T + c.C)
  b := Config.freeWord (d + c.T + c.C + 1)
  i := Config.freeCount d % c.T
  j := Config.freeCount (d + 1) % c.C
  k := Config.freeCount (d + 2) % (c.NMIX + 1)
  idx := Config.freeCount (d + 3) % c.KB

/-- The datapath after reset: every register unspecified, `r` in its range (R34, R27). -/
def freeDatapath (c : Configuration) (d : Nat) : Datapath where
  A := Config.freeWord (d + c.T + c.C + 2)
  B := Config.freeWord (d + c.T + c.C + 3)
  r := 1 + Config.freeCount (d + 4) % c.R

/-- The registers of a core right after reset (R34, R151): `UNKEYED`, no response pending, nothing pending on the
port (R152), the constants unchanged, every other register a fresh free value.  The reset input is the host's. -/
def State.afterReset (c : Configuration) (s : State) : State :=
  { s with
    st := .unkeyed
    kx := freeKeyExpander c s.draws
    dp := freeDatapath c s.draws
    rsp := none
    port := none
    draws := s.draws + c.T + c.C + 5 }

/-- Reset asserted: the command in flight is abandoned, one that waited is no longer pending (R150, R152). -/
def State.assertReset (s : State) : State := { s with inReset := true, port := none }

/-- Reset released: the state is that of R151.  Releasing an input that is not asserted does nothing, and
where no core exists there is nothing to reset. -/
def State.releaseReset (s : State) : State :=
  if s.inReset then
    match s.build with
    | .built c => State.afterReset c { s with inReset := false }
    | .notBuilt => { s with inReset := false }
    | .failed _ => { s with inReset := false }
  else s

/-- The host's next action; a host with nothing listed holds (R70; log entry 7). -/
def State.action (s : State) : HostAction := s.host.headD .hold

/-- The state with the host's next action taken off its list. -/
def State.dropAction (s : State) : State := { s with host := s.host.tail }

/-- The state with the command port driven to `p`. -/
def State.setPort (p : Option Frame) (s : State) : State := { s with port := p }

end Sys2Proof.Machine
end

