-- ==== Sys2Proof/Machine/BlockCipher.lean ====
section
/-! DEFINITION. ENCRYPT and DECRYPT (42_block_cipher.md R110 to R119): the size check and the rotate-add-xor
rounds on the two data words. -/

namespace Sys2Proof.Machine

/-- The whitening before the rounds of ENCRYPT: `A + S[0]`, `B + S[1]` (R110). -/
def whiten (S : List Word) (AB : Word × Word) : Word × Word :=
  (add32 AB.1 (entry S 0), add32 AB.2 (entry S 1))

/-- Its inverse after the rounds of DECRYPT: `A - S[0]`, `B - S[1]` (R111). -/
def unwhiten (S : List Word) (AB : Word × Word) : Word × Word :=
  (sub32 AB.1 (entry S 0), sub32 AB.2 (entry S 1))

/-- A half-round of ENCRYPT: xor, then rotate by the other word, then add (R112). -/
def encHalf (x y key : Word) : Word := add32 (rotl32 (xor32 x y) (rotAmount y)) key

/-- Encryption round `r`: the second half uses the `A` just written (R112). -/
def encRound (S : List Word) (r : Nat) (AB : Word × Word) : Word × Word :=
  (encHalf AB.1 AB.2 (entry S (2 * r)),
    encHalf AB.2 (encHalf AB.1 AB.2 (entry S (2 * r))) (entry S (2 * r + 1)))

/-- Rounds 1 to `n`, upwards (R110, R15). -/
def encRounds (S : List Word) : Nat → Word × Word → Word × Word
  | 0, AB => AB
  | n + 1, AB => encRound S (n + 1) (encRounds S n AB)

/-- A half-round of DECRYPT: subtract, then rotate by the other word, then xor (R113). -/
def decHalf (x y key : Word) : Word := xor32 (rotr32 (sub32 x key) (rotAmount y)) y

/-- Decryption round `r`: `B` first with the current `A`, then `A` with the new `B` (R113). -/
def decRound (S : List Word) (r : Nat) (AB : Word × Word) : Word × Word :=
  (decHalf AB.1 (decHalf AB.2 AB.1 (entry S (2 * r + 1))) (entry S (2 * r)),
    decHalf AB.2 AB.1 (entry S (2 * r + 1)))

/-- Rounds `n` down to 1 (R111, R15). -/
def decRounds (S : List Word) : Nat → Word × Word → Word × Word
  | 0, AB => AB
  | n + 1, AB => decRounds S n (decRound S (n + 1) AB)

/-- The two data words of ENCRYPT after its `R` rounds (R110). -/
def encryptWords (c : Configuration) (S : List Word) (AB : Word × Word) : Word × Word :=
  encRounds S c.R (whiten S AB)

/-- The two data words of DECRYPT after its `R` inverse rounds (R111). -/
def decryptWords (c : Configuration) (S : List Word) (AB : Word × Word) : Word × Word :=
  unwhiten S (decRounds S c.R AB)

/-- What both block operations share: accepted only in `READY` (R115); the size check before any byte is read
(R114); then the transformed words in `A`, `B`, the round counter where the loop left it, and the 8 bytes of the
response.  Nothing else is written (R116). -/
def blockOp (transform : Configuration → List Word → Word × Word → Word × Word) (lastRound : Configuration → Nat)
    (din : List Byte) (s : State) : Host.Outcome State Fault Refusal :=
  onCore s fun c =>
    if s.acceptsBlock then
      if din.length ≠ c.BLK then raise .invalidPlainTextSize s
      else
        respond { status := .ok, data := storeBlock (transform c s.kx.S (loadBlock din)) }
          (s.setDatapath
            { A := (transform c s.kx.S (loadBlock din)).1
              B := (transform c s.kx.S (loadBlock din)).2
              r := lastRound c })
    else wait s

/-- `ENCRYPT din` (R110); `r` counts up and ends at `R`. -/
def execEncrypt (din : List Byte) (s : State) : Host.Outcome State Fault Refusal :=
  blockOp encryptWords (fun c => c.R) din s

/-- `DECRYPT din` (R111); `r` counts down and ends at 1. -/
def execDecrypt (din : List Byte) (s : State) : Host.Outcome State Fault Refusal :=
  blockOp decryptWords (fun _ => 1) din s

end Sys2Proof.Machine
end

