-- ==== Sys2Proof/Machine/Configure.lean ====
section
/-! DEFINITION. CONFIG (40_configuration.md R80 to R83): parameter validation and derivation, evaluated when a
core is built (30_encoding.md R67). -/

namespace Sys2Proof.Machine

/-- `CONFIG w, r, kb` where no core exists (R80).  The word size is tested before `r` and `kb` are looked at;
its error is the result of the build and is never seen on the response port (R131).  A parameter set outside
the constraints is not built (R82).  A core that is built stands in its reset state (log entry 5). -/
def buildCore (w r kb : Int) (s : State) : Host.Outcome State Fault Refusal :=
  if w ≠ 32 then .next { s with build := .failed .unsupportedWordSize }
  else if Configuration.legal s.lenw { R := r.toNat, KB := kb.toNat } then
    .next (State.afterReset { R := r.toNat, KB := kb.toNat }
      { s with build := .built { R := r.toNat, KB := kb.toNat } })
  else .refused .parametersNotBuildable

/-- `CONFIG`: once, when the core is built (R60, R67); nothing changes the Configuration of a core that exists
(R83). -/
def execConfig (w r kb : Int) (s : State) : Host.Outcome State Fault Refusal :=
  match s.build with
  | .built _ => .refused .coreAlreadyBuilt
  | .notBuilt => buildCore w r kb s
  | .failed _ => buildCore w r kb s

end Sys2Proof.Machine
end

