-- ==== Sys2Proof/Machine/KeyExpansion.lean ====
section
/-! DEFINITION. KEYLOAD (41_key_expansion.md R90 to R102): the length check, packing, the arithmetic progression
and the mixing iterations. -/

namespace Sys2Proof.Machine

/-- The constant `P` (R14). -/
def magicP : Word := 0xb7e15163#32

/-- The constant `Q` (R14). -/
def magicQ : Word := 0x9e3779b9#32

/-- One fold of step 1: key byte `n` enters word `n div 4` from below (R92). -/
def packByte (c : Configuration) (key : List Byte) (n : Nat) (L : List Word) : List Word :=
  setEntry L (n / c.U) (add32 (entry L (n / c.U) <<< 8) ((byteAt key n).setWidth 32))

/-- The folds for `idx = n-1` down to 0, in that order (R92). -/
def packDown (c : Configuration) (key : List Byte) : Nat → List Word → List Word
  | 0, L => L
  | n + 1, L => packDown c key n (packByte c key n L)

/-- Step 1: all `C` words start at zero, then every key byte from the last down to the first (R92). -/
def packKey (c : Configuration) (key : List Byte) : List Word :=
  packDown c key c.KB (List.replicate c.C 0#32)

/-- `n` words, the first `v`, each next one `Q` more (R93). -/
def progression : Nat → Word → List Word
  | 0, _ => []
  | n + 1, v => v :: progression n (add32 v magicQ)

/-- Step 2: `S[0] <- P`, `S[i] <- S[i-1] + Q` for `i = 1 .. T-1` (R93).  Every entry is written, so nothing of
the table before it is left (R98). -/
def initTable (c : Configuration) : List Word := progression c.T magicP

/-- The key expander when mixing starts: steps 1 and 2 done, `a`, `b`, `i`, `j` at 0 (R90). -/
def mixStart (c : Configuration) (key : List Byte) : KeyExpander where
  S := initTable c
  L := packKey c key
  a := 0#32
  b := 0#32
  i := 0
  j := 0
  k := 0
  idx := 0

/-- Lines 1 and 2 of a mixing iteration: the table step (R94). -/
def mixTable (x : KeyExpander) : KeyExpander :=
  { x with
    S := setEntry x.S x.i (rotl32 (add32 (add32 (entry x.S x.i) x.a) x.b) 3)
    a := rotl32 (add32 (add32 (entry x.S x.i) x.a) x.b) 3 }

/-- Lines 3 and 4: the key step, with the new `a` and the old `b`, both in the sum and as the amount (R94). -/
def mixKey (x : KeyExpander) : KeyExpander :=
  { x with
    L := setEntry x.L x.j (rotl32 (add32 (add32 (entry x.L x.j) x.a) x.b) (rotAmount (add32 x.a x.b)))
    b := rotl32 (add32 (add32 (entry x.L x.j) x.a) x.b) (rotAmount (add32 x.a x.b)) }

/-- Lines 5 and 6: both cursors advance and wrap independently (R94). -/
def mixCursors (c : Configuration) (x : KeyExpander) : KeyExpander :=
  { x with i := (x.i + 1) % c.T, j := (x.j + 1) % c.C, k := x.k + 1 }

/-- One mixing iteration: the six lines in their order (R94). -/
def mixStep (c : Configuration) (x : KeyExpander) : KeyExpander := mixCursors c (mixKey (mixTable x))

/-- `n` mixing iterations, one after the other (R95, R100). -/
def mixSteps (c : Configuration) : Nat → KeyExpander → KeyExpander
  | 0, x => x
  | n + 1, x => mixSteps c n (mixStep c x)

/-- Steps 1 to 3: the key expander after `3 * T` iterations (R95).  It is a function of the configuration and the
key alone (R101). -/
def expandKey (c : Configuration) (key : List Byte) : KeyExpander := mixSteps c c.NMIX (mixStart c key)

/-- The construction of an engine: `CONSTRUCTING` while the key expander works, then `READY` (R90, R96). -/
def construct (c : Configuration) (key : List Byte) (s : State) : State :=
  { { { s with st := .constructing } with kx := expandKey c key } with st := .ready }

/-- `KEYLOAD key` (R90): the length check before any state is written (R91), then the whole construction as one
indivisible step (R97), in `UNKEYED` and in `READY` alike (R98). -/
def execKeyload (key : List Byte) (s : State) : Host.Outcome State Fault Refusal :=
  onCore s fun c =>
    if s.acceptsKeyload then
      if key.length ≠ c.KB then raise .unsupportedKeyLength s
      else respond { status := .ok, data := [] } (construct c key s)
    else wait s

end Sys2Proof.Machine
end

