-- ==== Sys2Proof/Machine/Reserved.lean ====
section
/-! DEFINITION. Opcode 00 (30_encoding.md R66). -/

namespace Sys2Proof.Machine

/-- "A model refuses a command with `op = 00`": it is no no-op and no error kind answers it (R66).  It is the
first test on a frame, so nothing else is examined (R138). -/
def execReserved (_payload : List Byte) (_s : State) : Host.Outcome State Fault Refusal :=
  .refused .reservedOpcode

end Sys2Proof.Machine
end

