-- ==== Sys2Proof/Machine/Dispatch.lean ====
section
/-! DEFINITION. The meaning of every instruction, one arm per row of the opcode table. -/

namespace Sys2Proof.Machine

def exec (i : Instr) (s : State) : Host.Outcome State Fault Refusal :=
  match i with
  | .config w r kb => Sys2Proof.Machine.execConfig w r kb s
  | .keyload key => Sys2Proof.Machine.execKeyload key s
  | .encrypt din => Sys2Proof.Machine.execEncrypt din s
  | .decrypt din => Sys2Proof.Machine.execDecrypt din s
  | .reserved payload => Sys2Proof.Machine.execReserved payload s

end Sys2Proof.Machine
end

