-- ==== Sys2Proof/Machine/Step.lean ====
section
/-! DEFINITION. One step of the machine: the host's next action on the core, then, unless it was reset or a
build, the core takes the frame on its command port (30_encoding.md R70). -/

namespace Sys2Proof.Machine

/-- The core looks at its command port.  With nothing on it the core is idle (R148).  A frame is decoded and run:
it is answered, and leaves the port, or it is not accepted, and stays (R70). -/
def serve (s : State) : Host.Outcome State Fault Refusal :=
  match s.port with
  | none => .next s
  | some f =>
    match decode s.lenw f with
    | .ok i => exec i s
    | .error e => .refused (.undecodable e)

/-- One step.  Reset comes before the port, so a step in which the host asserts it is also the one in which an
accepted command is cut short (R152). -/
def step (s : State) : Host.Outcome State Fault Refusal :=
  match s.action with
  | .hold => serve s.dropAction
  | .present f => serve (s.dropAction.setPort (some f))
  | .withdraw => serve (s.dropAction.setPort none)
  | .assertReset => .next s.dropAction.assertReset
  | .releaseReset => .next s.dropAction.releaseReset
  | .build w r kb => exec (.config w r kb) s.dropAction

/-- The frame whose bits are `w` on the command port, and a host that holds for the next step (log entry 6). -/
def State.withFetchWord (s : State) (nbits w : Nat) : State :=
  { s with
    port := (decodeTableWord nbits w).bind encode
    host := .hold :: s.host }

end Sys2Proof.Machine
end

