-- ==== Sys2Proof/Safety.lean ====
section
/-! DEFINITION. What a run is held to: the invariant of the state, the host's duties (30_encoding.md R70), and
the run of a program of frames (R71). -/

namespace Sys2Proof.Machine

/-- The expander's register files have the sizes of the configuration and its counters are in their ranges
(10_state.md R22, R23, R25). -/
def KeyExpander.fits (c : Configuration) (x : KeyExpander) : Bool :=
  decide (x.S.length = c.T) && decide (x.L.length = c.C) && decide (x.i < c.T) && decide (x.j < c.C)
    && decide (x.k ≤ c.NMIX) && decide (x.idx < c.KB)

/-- The round counter is in its range (R27). -/
def Datapath.fits (c : Configuration) (d : Datapath) : Bool := decide (1 ≤ d.r) && decide (d.r ≤ c.R)

/-- A response a command can have: with no error 0 or 8 bytes, with an error none (R65, 60_exceptions.md R135);
status 1 is never one of them (R131). -/
def Response.lawful (ρ : Response) : Bool :=
  match ρ.status with
  | .ok => decide (ρ.data.length = 0) || decide (ρ.data.length = 8)
  | .error .unsupportedWordSize => false
  | .error .unsupportedKeyLength => decide (ρ.data.length = 0)
  | .error .invalidPlainTextSize => decide (ρ.data.length = 0)

/-- What every core that exists keeps: legal parameters, register files of their sizes, counters in range. -/
def State.coreFits (s : State) : Bool :=
  match s.build with
  | .built c => c.legal s.lenw && s.kx.fits c && s.dp.fits c
  | .notBuilt => decide (s.st = .unkeyed)
  | .failed _ => decide (s.st = .unkeyed)

/-- The invariant: `CONSTRUCTING` is never seen between steps (R31, R97), the last response is one a command can
have, what waits on the port is a frame (R61), and the core keeps its shape. -/
def State.inv (s : State) : Bool :=
  decide (s.st ≠ .constructing) && s.rsp.all Response.lawful
    && s.port.all (fun f => decide (f.payload.length < 2 ^ s.lenw)) && s.coreFits

/-- The frame the core finds on its port in the coming step, if it gets to look. -/
def State.offered (s : State) : Option Frame :=
  match s.action with
  | .hold => s.port
  | .present f => some f
  | .withdraw => none
  | .assertReset => none
  | .releaseReset => none
  | .build _ _ _ => none

/-- The host sends nothing that is refused in the coming step: no frame with opcode 00 and none that the format cannot
express (R61, R66, R70), and no second `CONFIG` (R60; log entry 5).  R70's other duty, a key before the first block
command, is left out: without it the command waits (log entry 8). -/
def State.hostDuty (s : State) : Bool :=
  s.offered.all (fun f => decide (f.op ≠ 0#2) && decide (f.payload.length < 2 ^ s.lenw))
    && match s.action with
      | .build _ _ _ => false
      | .hold => true
      | .present _ => true
      | .withdraw => true
      | .assertReset => true
      | .releaseReset => true

/-- `n` steps, one after the other, stopping where one does not answer a next state. -/
def runSteps : Nat → State → Host.Outcome State Fault Refusal
  | 0, s => .next s
  | n + 1, s =>
    match step s with
    | .next t => runSteps n t
    | .fault why => .fault why
    | .refused why => .refused why

/-- A run of a program of frames, the next presented once the one before it has its response (R71): the responses
and the end state.  `none` where the run does not end normally: a refused frame, or one that is stuck. -/
def runFrames : List Frame → State → Option (List Response × State)
  | [], s => some ([], s)
  | f :: fs, s =>
    match step { s with host := [.present f] } with
    | .next t =>
      match t.port, t.rsp with
      | none, some ρ => (runFrames fs t).map fun out => (ρ :: out.1, out.2)
      | none, none => none
      | some _, _ => none
    | .fault _ => none
    | .refused _ => none

end Sys2Proof.Machine
end

