-- ==== Sys2Proof/Certificates/Slice0/Obligations.lean ====
section
/-! DEFINITION. The statements for the provers.  Each docstring names the rule of spec/ it formalises; OBLIGATIONS.json
lists them.  None rests on a value that the model chose for a register at reset (10_state.md R34), and none says what
a scratch register holds after a command (30_encoding.md R71): a frame leaves `kx` or `dp` open where a command
writes scratch state there. -/

open Sys2Proof Sys2Proof.Machine

/-! ### Arithmetic and byte order -/

/-- Sums and differences wrap modulo `2^32` (R10). -/
def Obligations.WordSumsWrap : Prop :=
  ∀ x y z : Word,
    (add32 x y).toNat = (x.toNat + y.toNat) % 2 ^ 32 ∧
    (add32 (add32 x y) z).toNat = (x.toNat + y.toNat + z.toNat) % 2 ^ 32 ∧
    ((sub32 x y).toNat : Int) = ((x.toNat : Int) - (y.toNat : Int)) % 2 ^ 32

/-- Bit `n` of `x xor y` is 1 exactly when bit `n` of `x` and bit `n` of `y` differ (R11). -/
def Obligations.XorIsBitDifference : Prop :=
  ∀ (x y : Word) (n : Nat), n < 32 → ((xor32 x y).getLsbD n = true ↔ x.getLsbD n ≠ y.getLsbD n)

/-- `rotl32` by R12's formula, with the amount reduced modulo 32 (the low 5 bits), and its bit view. -/
def Obligations.RotateLeftFormula : Prop :=
  ∀ (x : Word) (n : Nat),
    (n % 32 = 0 → rotl32 x n = x) ∧
    (0 < n % 32 →
      (rotl32 x n).toNat = x.toNat * 2 ^ (n % 32) % 2 ^ 32 + x.toNat / 2 ^ (32 - n % 32)) ∧
    (∀ p, p < 32 → (rotl32 x n).getLsbD ((p + n % 32) % 32) = x.getLsbD p) ∧
    (∀ v : Word, rotAmount v = (v.extractLsb' 0 5).toNat)

/-- `rotr32` by R13's formula; the two rotates undo each other.  The inverse laws are marked derived in the rule. -/
def Obligations.RotateRightInvertsRotateLeft : Prop :=
  ∀ (x : Word) (n : Nat),
    (n % 32 = 0 → rotr32 x n = x) ∧
    (0 < n % 32 →
      (rotr32 x n).toNat = x.toNat / 2 ^ (n % 32) + x.toNat * 2 ^ (32 - n % 32) % 2 ^ 32) ∧
    rotr32 (rotl32 x n) n = x ∧ rotl32 (rotr32 x n) n = x ∧ rotr32 x n = rotl32 x (32 - n % 32)

/-- `MemRead`: the byte at the lowest index is the least significant (R42). -/
def Obligations.MemReadIsLittleEndian : Prop :=
  ∀ (buf : List Byte) (off : Nat), off + 4 ≤ buf.length →
    ∃ b0 b1 b2 b3 : Byte,
      buf[off]? = some b0 ∧ buf[off + 1]? = some b1 ∧ buf[off + 2]? = some b2 ∧ buf[off + 3]? = some b3 ∧
      (memRead buf off).toNat = b0.toNat + b1.toNat * 2 ^ 8 + b2.toNat * 2 ^ 16 + b3.toNat * 2 ^ 24

/-- `MemWrite` writes four bytes, least significant first, and no others; `MemRead` after it returns the word; an
output block is the bytes of `A`, then those of `B` (R43). -/
def Obligations.MemWriteIsLittleEndian : Prop :=
  (∀ (buf : List Byte) (off : Nat) (v : Word), off + 4 ≤ buf.length →
    (∀ m, (memWrite buf off v)[m]? =
      if off ≤ m ∧ m < off + 4 then some (BitVec.ofNat 8 (v.toNat / 2 ^ (8 * (m - off)) % 256)) else buf[m]?) ∧
    memRead (memWrite buf off v) off = v) ∧
  (∀ A B : Word,
    storeBlock (A, B) =
      memWrite (List.replicate 4 0#8) 0 A ++ memWrite (List.replicate 4 0#8) 0 B)

/-! ### Encoding -/

/-- The header is `op + 4 * len`: `CH[1:0] = op`, `CH[LENW+1:2] = len`, read back alike (R62, R69). -/
def Obligations.HeaderHoldsOpAndLen : Prop :=
  ∀ (lenw : Nat) (op : BitVec 2) (len : Nat), len < 2 ^ lenw →
    (packHeader lenw op len).toNat = op.toNat + 4 * len ∧
    headerOp (packHeader lenw op len) = op ∧ headerLen (packHeader lenw op len) = len ∧
    (∀ ch : BitVec (lenw + 2), packHeader lenw (headerOp ch) (headerLen ch) = ch)

/-- The opcode map, complete for the 2-bit field, every payload the format can express admitted; a longer payload
is rejected by name (R61, R63, R64, R66). -/
def Obligations.OpcodeMapIsComplete : Prop :=
  ∀ (lenw : Nat) (payload : List Byte),
    (payload.length < 2 ^ lenw →
      decode lenw { op := 0#2, payload := payload } = .ok (.reserved payload) ∧
      decode lenw { op := 1#2, payload := payload } = .ok (.keyload payload) ∧
      decode lenw { op := 2#2, payload := payload } = .ok (.encrypt payload) ∧
      decode lenw { op := 3#2, payload := payload } = .ok (.decrypt payload)) ∧
    (2 ^ lenw ≤ payload.length →
      ∀ op, decode lenw { op := op, payload := payload } = .error .lengthNotExpressible)

/-- Decoding the header and bytes of a well-formed command gives the command and leaves what follows it (R61 to
R64, R68). -/
def Obligations.DecodeOfEncodeIsIdentity : Prop :=
  ∀ (lenw : Nat) (i : Instr) (rest : List Byte), i.wellFormed lenw = true → (∀ w r kb, i ≠ .config w r kb) →
    ∃ ch bytes, encodeWire lenw i = some (ch, bytes) ∧ decodeWire ch (bytes ++ rest) = .ok (i, rest)

/-- What decodes is the encoding of what it decodes to, and is well formed: no two headers or payloads share a
meaning (R61 to R64, R68). -/
def Obligations.EncodeOfDecodeIsIdentity : Prop :=
  ∀ (lenw : Nat) (ch : BitVec (lenw + 2)) (bytes rest : List Byte) (i : Instr),
    decodeWire ch bytes = .ok (i, rest) →
      i.wellFormed lenw = true ∧ ∃ used, encodeWire lenw i = some (ch, used) ∧ bytes = used ++ rest

/-- The header alone tells how long a frame is: decoding fails only where bytes are missing, whatever the opcode
(R66, R68). -/
def Obligations.FrameLengthComesFromHeader : Prop :=
  ∀ (lenw : Nat) (ch : BitVec (lenw + 2)) (bytes : List Byte),
    (headerLen ch ≤ bytes.length → ∃ i, decodeWire ch bytes = .ok (i, bytes.drop (headerLen ch))) ∧
    (bytes.length < headerLen ch → decodeWire ch bytes = .error .payloadTruncated)

/-- `CONFIG` has no command encoding: it is encoded by no frame and decoded from none (R67). -/
def Obligations.ConfigHasNoFrame : Prop :=
  ∀ w r kb : Int,
    encode (.config w r kb) = none ∧ (∀ lenw f, decode lenw f ≠ .ok (.config w r kb)) ∧
    (∀ (lenw : Nat) (ch : BitVec (lenw + 2)) (bytes rest : List Byte),
      decodeWire ch bytes ≠ .ok (.config w r kb, rest))

/-- Sanity: headers of 30_encoding.md R69 and 95_test_vectors.md F3, F4, F14, PR5 read as the words they stand for;
payload bits from bit 10 up are the model's choice (log entry 6). -/
def Obligations.TableWordsDecodeRight : Prop :=
  decodeTableWord 16 0x041 = some (.keyload (List.replicate 16 0#8)) ∧
  decodeTableWord 16 0x022 = some (.encrypt (List.replicate 8 0#8)) ∧
  decodeTableWord 16 0x023 = some (.decrypt (List.replicate 8 0#8)) ∧
  decodeTableWord 16 0x001 = some (.keyload []) ∧
  decodeTableWord 16 0x002 = some (.encrypt []) ∧
  decodeTableWord 16 0x000 = some (.reserved []) ∧
  decodeTableWord 48 (0x011 + 0x04030201 * 2 ^ 10) = some (.keyload [1#8, 2#8, 3#8, 4#8])

/-! ### The step -/

/-- A step runs the instruction that the frame on the command port decodes to, whether the frame was there already
or the host presents it in this step; the host's action is off its list.  The list of host actions is the model's
(log entry 7). -/
def Obligations.StepRunsThePresentedFrame : Prop :=
  ∀ (s : State) (f : Frame) (i : Instr), decode s.lenw f = .ok i →
    (s.host = [] → s.port = some f → step s = exec i s) ∧
    (∀ rest, s.host = .hold :: rest → s.port = some f → step s = exec i { s with host := rest }) ∧
    (∀ rest, s.host = .present f :: rest → step s = exec i { s with host := rest, port := some f })

/-- What the host's interface stores is what the next step runs (log entry 6). -/
def Obligations.StepRunsTheFetchWord : Prop :=
  ∀ (s : State) (nbits w : Nat) (i : Instr), s.lenw = 8 → decodeTableWord nbits w = some i →
    ∃ f, encode i = some f ∧ step (s.withFetchWord nbits w) = exec i { s with port := some f }

/-- With nothing on the port the core is idle (R148); a withdrawn frame is gone (R70); a value no frame can hold is
refused by name (R61).  The list of host actions is the model's (log entry 7). -/
def Obligations.StepWithoutFrameIsIdle : Prop :=
  ∀ s : State,
    (s.host = [] → s.port = none → step s = .next s) ∧
    (∀ rest, s.host = .withdraw :: rest → step s = .next { s with host := rest, port := none }) ∧
    (∀ f rest, s.host = .present f :: rest → 2 ^ s.lenw ≤ f.payload.length →
      step s = .refused (.undecodable .lengthNotExpressible))

/-! ### Reset -/

/-- The state after reset, as far as the spec gives it: `UNKEYED`, no response pending, the built-in constants of the
reference profile (R34, R151; R6 to R8 for the profile), `LENW` at its default (R61, log entry 13).  That `State.reset`
is a core of the reference profile is log entry 2. -/
def Obligations.ResetStateValues : Prop :=
  State.reset.st = .unkeyed ∧ State.reset.rsp = none ∧ State.reset.port = none ∧
  (∃ c, State.reset.build = .built c ∧ c.W = 32 ∧ c.R = 12 ∧ c.KB = 16 ∧ c.U = 4 ∧ c.C = 4 ∧ c.T = 26 ∧
    State.reset.kx.S.length = c.T ∧ State.reset.kx.L.length = c.C) ∧
  State.reset.lenw = 8

/-- Releasing reset leaves `UNKEYED`, no response pending, nothing pending on the port, the constants unchanged, the
register files at their sizes; no block command is accepted then (R34, R150, R151, R152).  That a frame presented
during reset is dropped too is log entry 10, that an unaccepted command is a waiting step is log entry 8. -/
def Obligations.ReleasedResetGivesResetState : Prop :=
  ∀ (s : State) (c : Configuration) (rest : List HostAction),
    s.build = .built c → s.inReset = true → s.host = .releaseReset :: rest →
      ∃ t, step s = .next t ∧ t.st = .unkeyed ∧ t.rsp = none ∧ t.port = none ∧ t.inReset = false ∧
        t.build = .built c ∧ t.lenw = s.lenw ∧ t.host = rest ∧ t.kx.S.length = c.T ∧ t.kx.L.length = c.C ∧
        ∀ din, exec (.encrypt din) t = .next t ∧ exec (.decrypt din) t = .next t

/-- A reset abandons whatever command the port holds: it gets no response, and the state after the reset is the
reset state (R152).  That every register stays as it was while reset is asserted is the model's, log entry 10; so are
the two host actions as two steps, log entry 7. -/
def Obligations.ResetAbandonsTheCommand : Prop :=
  ∀ (s : State) (c : Configuration) (rest : List HostAction),
    s.build = .built c → s.host = .assertReset :: .releaseReset :: rest →
      ∃ t u, step s = .next t ∧
        t = { s with inReset := true, port := none, host := .releaseReset :: rest } ∧
        step t = .next u ∧
        u = { s with st := .unkeyed, rsp := none, inReset := false, port := none, host := rest,
                     kx := u.kx, dp := u.dp, draws := u.draws } ∧
        u.kx.S.length = c.T ∧ u.kx.L.length = c.C

/-- While reset is asserted the core accepts no command (R150; that the machine's step is then a wait is the model's, log
entry 8). -/
def Obligations.AssertedResetAcceptsNothing : Prop :=
  ∀ (s : State) (c : Configuration) (payload : List Byte), s.build = .built c → s.inReset = true →
    exec (.keyload payload) s = .next s ∧ exec (.encrypt payload) s = .next s ∧
    exec (.decrypt payload) s = .next s

/-! ### CONFIG -/

/-- `CONFIG 32, r, kb` with legal `r`, `kb` builds a core with the derived parameters of R8, R80, R81, `UNKEYED`; that
the new core stands in its reset state is the model's (log entry 5). -/
def Obligations.ConfigBuildsTheCore : Prop :=
  ∀ (s : State) (r kb : Int), (∀ c, s.build ≠ .built c) →
    1 ≤ r → 4 ≤ kb → kb % 4 = 0 → kb < 2 ^ s.lenw → 8 < 2 ^ s.lenw →
      ∃ t c, exec (.config 32 r kb) s = .next t ∧ t.build = .built c ∧
        c.W = 32 ∧ (c.R : Int) = r ∧ (c.KB : Int) = kb ∧ c.U = 4 ∧ (c.C : Int) = kb / 4 ∧
        (c.T : Int) = 2 * (r + 1) ∧ t.kx.S.length = c.T ∧ t.kx.L.length = c.C ∧
        t = { s with build := .built c, st := .unkeyed, rsp := none, port := none,
                     kx := t.kx, dp := t.dp, draws := t.draws }

/-- A word size other than 32 raises `UnsupportedWordSize`, before `r` or `kb` is looked at; no core is built and
nothing else changes (R80, R131, R138). -/
def Obligations.ConfigRejectsOtherWordSizes : Prop :=
  ∀ (s : State) (w r kb : Int), (∀ c, s.build ≠ .built c) → w ≠ 32 →
    exec (.config w r kb) s = .next { s with build := .failed .unsupportedWordSize }

/-- Parameter sets with `R < 1`, `KB < 4` or `KB mod 4 != 0`, or that break a constraint of the command format, are not
built; the refusal is none of the error kinds (R61, R82).  Nor is `CONFIG` evaluated on a core that exists (R60, R67,
R83; that it is refused there is the model's, log entry 5). -/
def Obligations.ConfigRefusesOtherParameters : Prop :=
  (∀ (s : State) (r kb : Int), (∀ c, s.build ≠ .built c) →
    (r < 1 ∨ kb < 4 ∨ kb % 4 ≠ 0 ∨ 2 ^ s.lenw ≤ kb ∨ 2 ^ s.lenw ≤ 8) →
      exec (.config 32 r kb) s = .refused .parametersNotBuildable) ∧
  (∀ (s : State) (c : Configuration) (w r kb : Int), s.build = .built c →
    exec (.config w r kb) s = .refused .coreAlreadyBuilt)

/-- The Configuration is immutable: once a core exists no step, no reset and no operation changes it (R83). -/
def Obligations.ConfigurationIsImmutable : Prop :=
  ∀ (s : State) (c : Configuration), s.build = .built c →
    (∀ t, step s = .next t → t.build = .built c) ∧ (∀ i t, exec i s = .next t → t.build = .built c)

/-- Where no core has been built no other operation can run (R80, R131). -/
def Obligations.NoCoreRunsNoCommand : Prop :=
  ∀ (s : State) (payload : List Byte), (∀ c, s.build ≠ .built c) →
    exec (.keyload payload) s = .refused .noCore ∧ exec (.encrypt payload) s = .refused .noCore ∧
    exec (.decrypt payload) s = .refused .noCore

/-! ### KEYLOAD -/

/-- Packing in closed form: word `q` of `L` is the little-endian word of key bytes `4q .. 4q+3` (R44, R92). -/
def Obligations.PackedKeyIsLittleEndian : Prop :=
  ∀ (lenw : Nat) (c : Configuration) (key : List Byte), c.legal lenw = true → key.length = c.KB →
    (packKey c key).length = c.C ∧ ∀ q, q < c.C → (packKey c key)[q]? = some (memRead key (4 * q))

/-- The initial table: `S[0] = P`, each next word `Q` more, `T` words; in closed form `P + i * Q` modulo `2^32`
(R14, R93). -/
def Obligations.InitialTableIsProgression : Prop :=
  ∀ c : Configuration,
    (initTable c).length = 2 * (c.R + 1) ∧ (initTable c)[0]? = some 0xb7e15163#32 ∧
    (∀ i v, i + 1 < 2 * (c.R + 1) → (initTable c)[i]? = some v →
      (initTable c)[i + 1]? = some (add32 v 0x9e3779b9#32)) ∧
    (∀ i, i < 2 * (c.R + 1) →
      (initTable c)[i]? = some (0xb7e15163#32 + BitVec.ofNat 32 i * 0x9e3779b9#32))

/-- One mixing iteration does the six things of R94 in their order, and mixing starts from two accumulators at 0 and
two cursors at 0. -/
def Obligations.MixingIterationRule : Prop :=
  (∀ (c : Configuration) (x : KeyExpander), x.i < x.S.length → x.j < x.L.length →
    ∃ y, mixStep c x = y ∧
      entry y.S x.i = rotl32 (add32 (add32 (entry x.S x.i) x.a) x.b) 3 ∧
      (∀ n, n ≠ x.i → y.S[n]? = x.S[n]?) ∧
      y.a = entry y.S x.i ∧
      entry y.L x.j = rotl32 (add32 (add32 (entry x.L x.j) y.a) x.b) ((add32 y.a x.b).toNat % 32) ∧
      (∀ n, n ≠ x.j → y.L[n]? = x.L[n]?) ∧
      y.b = entry y.L x.j ∧
      y.i = (x.i + 1) % c.T ∧ y.j = (x.j + 1) % c.C) ∧
  (∀ c key, (mixStart c key).a = 0#32 ∧ (mixStart c key).b = 0#32 ∧ (mixStart c key).i = 0 ∧
    (mixStart c key).j = 0)

/-- Every index KEYLOAD and the block operations use is inside its register file (R45, R47): through all the mixing
iterations the cursors stay in range and the files keep their sizes. -/
def Obligations.EveryIndexIsInRange : Prop :=
  ∀ (lenw : Nat) (c : Configuration) (key : List Byte), c.legal lenw = true → key.length = c.KB →
    (∀ n, n < c.KB → n / c.U < c.C) ∧
    (∀ r, 1 ≤ r → r ≤ c.R → 2 * r + 1 < c.T) ∧
    (∀ n, (mixSteps c n (mixStart c key)).i < c.T ∧ (mixSteps c n (mixStart c key)).j < c.C ∧
      (mixSteps c n (mixStart c key)).S.length = c.T ∧ (mixSteps c n (mixStart c key)).L.length = c.C)

/-- KEYLOAD as a whole: from the packed key and the initial table, `3 * T` iterations with cursors `k mod T` and
`k mod C`, each by R94, give the table; the state becomes `READY`, the response is `OK` with no data, and nothing
else but the key expander is written (R44, R90, R93 to R96, R97). -/
def Obligations.KeyloadExpandsTheKey : Prop :=
  ∀ (s : State) (c : Configuration) (key : List Byte),
    s.build = .built c → c.legal s.lenw = true → s.inReset = false → s.st ≠ .constructing → key.length = c.KB →
      ∃ (S L : Nat → List Word) (a b : Nat → Word),
        ((S 0).length = 2 * (c.R + 1) ∧
          ∀ i, i < 2 * (c.R + 1) →
            (S 0)[i]? = some (0xb7e15163#32 + BitVec.ofNat 32 i * 0x9e3779b9#32)) ∧
        ((L 0).length = c.KB / 4 ∧ ∀ q, q < c.KB / 4 → (L 0)[q]? = some (memRead key (4 * q))) ∧
        a 0 = 0#32 ∧ b 0 = 0#32 ∧
        (∀ k, k < 3 * (2 * (c.R + 1)) →
          a (k + 1) = rotl32 (add32 (add32 (entry (S k) (k % (2 * (c.R + 1)))) (a k)) (b k)) 3 ∧
          S (k + 1) = (S k).set (k % (2 * (c.R + 1))) (a (k + 1)) ∧
          b (k + 1) = rotl32 (add32 (add32 (entry (L k) (k % (c.KB / 4))) (a (k + 1))) (b k))
            ((add32 (a (k + 1)) (b k)).toNat % 32) ∧
          L (k + 1) = (L k).set (k % (c.KB / 4)) (b (k + 1))) ∧
        ∃ t, exec (.keyload key) s = .next t ∧ t.kx.S = S (3 * (2 * (c.R + 1))) ∧
          t = { s with st := .ready, kx := t.kx, rsp := some { status := .ok, data := [] }, port := none }

/-- The table after a successful KEYLOAD depends on the configuration and the key alone, not on the table before it,
nor on the state it was accepted in (R98, R101). -/
def Obligations.KeyloadDependsOnKeyOnly : Prop :=
  ∀ (s s' : State) (c : Configuration) (key : List Byte),
    s.build = .built c → s'.build = .built c → s.inReset = false → s'.inReset = false →
    s.st ≠ .constructing → s'.st ≠ .constructing → key.length = c.KB →
      ∃ t t', exec (.keyload key) s = .next t ∧ exec (.keyload key) s' = .next t' ∧
        t.kx.S = t'.kx.S ∧ t.st = .ready ∧ t'.st = .ready ∧ t.rsp = t'.rsp

/-- A key of any other length raises `UnsupportedKeyLength` and changes no state: an old key stays in force
(R91, R99, R132; that it stays is the spec's own decision D10, log entry 11). -/
def Obligations.WrongKeyLengthChangesNothing : Prop :=
  ∀ (s : State) (c : Configuration) (key : List Byte),
    s.build = .built c → s.inReset = false → s.st ≠ .constructing → key.length ≠ c.KB →
      exec (.keyload key) s =
        .next { s with rsp := some { status := .error .unsupportedKeyLength, data := [] }, port := none }

/-! ### ENCRYPT and DECRYPT -/

/-- One encryption round (R112): xor, rotate by the other word modulo 32, add, the second half with the new `A`. -/
def Obligations.EncryptionRoundRule : Prop :=
  ∀ (S : List Word) (r : Nat) (A B : Word), ∃ A' B' : Word, encRound S r (A, B) = (A', B') ∧
    A' = add32 (rotl32 (xor32 A B) (B.toNat % 32)) (entry S (2 * r)) ∧
    B' = add32 (rotl32 (xor32 B A') (A'.toNat % 32)) (entry S (2 * r + 1))

/-- One decryption round (R113): subtract, rotate, xor, `B` first; it undoes the encryption round of the same number,
and the other way round.  That it undoes it is marked derived in the rule. -/
def Obligations.DecryptionRoundUndoesEncryptionRound : Prop :=
  ∀ (S : List Word) (r : Nat) (A B : Word),
    (∃ A' B' : Word, decRound S r (A, B) = (A', B') ∧
      B' = xor32 (rotr32 (sub32 B (entry S (2 * r + 1))) (A.toNat % 32)) A ∧
      A' = xor32 (rotr32 (sub32 A (entry S (2 * r))) (B'.toNat % 32)) B') ∧
    decRound S r (encRound S r (A, B)) = (A, B) ∧ encRound S r (decRound S r (A, B)) = (A, B)

/-- ENCRYPT as a whole (R110): whitening, rounds 1 to `R` by R112, the bytes of the last `A`, then of the last `B`;
nothing but the datapath scratch, the response and the port is written. -/
def Obligations.EncryptRunsTheRounds : Prop :=
  ∀ (s : State) (c : Configuration) (din : List Byte),
    s.build = .built c → s.inReset = false → s.st = .ready → din.length = 8 →
      ∃ A B : Nat → Word,
        A 0 = add32 (memRead din 0) (entry s.kx.S 0) ∧ B 0 = add32 (memRead din 4) (entry s.kx.S 1) ∧
        (∀ r, 1 ≤ r → r ≤ c.R →
          A r = add32 (rotl32 (xor32 (A (r - 1)) (B (r - 1))) ((B (r - 1)).toNat % 32)) (entry s.kx.S (2 * r)) ∧
          B r = add32 (rotl32 (xor32 (B (r - 1)) (A r)) ((A r).toNat % 32)) (entry s.kx.S (2 * r + 1))) ∧
        ∃ t, exec (.encrypt din) s = .next t ∧
          t = { s with dp := t.dp, port := none,
                       rsp := some { status := .ok, data := (List.range 4).map (wordByte (A c.R)) ++
                                                            (List.range 4).map (wordByte (B c.R)) } }

/-- DECRYPT as a whole (R111): rounds `R` down to 1 by R113, then the whitening words taken off, the bytes of `A`, then
of `B`; nothing but the datapath scratch, the response and the port is written. -/
def Obligations.DecryptRunsTheInverseRounds : Prop :=
  ∀ (s : State) (c : Configuration) (din : List Byte),
    s.build = .built c → s.inReset = false → s.st = .ready → din.length = 8 →
      ∃ A B : Nat → Word,
        A c.R = memRead din 0 ∧ B c.R = memRead din 4 ∧
        (∀ r, 1 ≤ r → r ≤ c.R →
          B (r - 1) = xor32 (rotr32 (sub32 (B r) (entry s.kx.S (2 * r + 1))) ((A r).toNat % 32)) (A r) ∧
          A (r - 1) = xor32 (rotr32 (sub32 (A r) (entry s.kx.S (2 * r))) ((B (r - 1)).toNat % 32)) (B (r - 1))) ∧
        ∃ t, exec (.decrypt din) s = .next t ∧
          t = { s with dp := t.dp, port := none,
                       rsp := some { status := .ok, data :=
                         (List.range 4).map (wordByte (sub32 (A 0) (entry s.kx.S 0))) ++
                         (List.range 4).map (wordByte (sub32 (B 0) (entry s.kx.S 1))) } }

/-- Round trip, in both orders, for every configuration, every table and every 8-byte block (R117).  That the table
may be any is marked derived in the rule. -/
def Obligations.RoundTrip : Prop :=
  ∀ (s : State) (c : Configuration) (block : List Byte),
    s.build = .built c → s.inReset = false → s.st = .ready → block.length = 8 →
      (∃ t u other, exec (.encrypt block) s = .next t ∧ t.rsp = some { status := .ok, data := other } ∧
        exec (.decrypt other) t = .next u ∧ u.rsp = some { status := .ok, data := block }) ∧
      (∃ t u other, exec (.decrypt block) s = .next t ∧ t.rsp = some { status := .ok, data := other } ∧
        exec (.encrypt other) t = .next u ∧ u.rsp = some { status := .ok, data := block })

/-- A payload of any length but 8 raises `InvalidPlainTextSize`, changes no state, and leaves the engine usable: the
very next block command with 8 bytes answers 8 bytes (R114, R133). -/
def Obligations.WrongBlockSizeLeavesEngineUsable : Prop :=
  ∀ (s : State) (c : Configuration) (din : List Byte),
    s.build = .built c → s.inReset = false → s.st = .ready → din.length ≠ 8 →
      ∃ t, exec (.encrypt din) s = .next t ∧ exec (.decrypt din) s = .next t ∧
        t = { s with rsp := some { status := .error .invalidPlainTextSize, data := [] }, port := none } ∧
        ∀ good : List Byte, good.length = 8 →
          (∃ u dout, exec (.encrypt good) t = .next u ∧ u.rsp = some { status := .ok, data := dout } ∧
            dout.length = 8) ∧
          (∃ u dout, exec (.decrypt good) t = .next u ∧ u.rsp = some { status := .ok, data := dout } ∧
            dout.length = 8)

/-- A block command is accepted only in `READY`: in any other state it has no effect and no response, whatever its
length (R115, R138; that the machine's step is then a wait is the model's, log entry 8). -/
def Obligations.BlockCommandWaitsUntilKeyed : Prop :=
  ∀ (s : State) (c : Configuration) (din : List Byte), s.build = .built c → s.st ≠ .ready →
    exec (.encrypt din) s = .next s ∧ exec (.decrypt din) s = .next s

/-- Block commands have no side effects: they write no state but the datapath scratch and the response, and the
response depends on the table, the number of rounds and their own bytes only (R116). -/
def Obligations.BlockCommandsHaveNoSideEffects : Prop :=
  ∀ (i : Instr), (∃ din, i = .encrypt din ∨ i = .decrypt din) →
    (∀ s t, exec i s = .next t → t = { s with dp := t.dp, rsp := t.rsp, port := t.port }) ∧
    (∀ s s' c c', s.build = .built c → s'.build = .built c' → c.R = c'.R → s.inReset = false →
      s'.inReset = false → s.st = .ready → s'.st = .ready → s.kx.S = s'.kx.S →
        ∃ t t', exec i s = .next t ∧ exec i s' = .next t' ∧ t.rsp = t'.rsp)

/-- A repeated block command produces the identical output, repeated at once or with any one block command in between
(R118).  Where the commands are not accepted, that each answers a next state at all is the model's, log entry 8. -/
def Obligations.RepeatedBlockCommandRepeatsItsOutput : Prop :=
  ∀ (i j : Instr), (∃ din, i = .encrypt din ∨ i = .decrypt din) → (∃ din, j = .encrypt din ∨ j = .decrypt din) →
    ∀ s t, exec i s = .next t →
      (∃ v, exec i t = .next v ∧ v.rsp = t.rsp) ∧
      (∀ u, exec j t = .next u → ∃ v, exec i u = .next v ∧ v.rsp = t.rsp)

/-- A block command uses the table of the most recent KEYLOAD whose length check passed; one that failed in between
does not count: its answer depends on that key and its own bytes, not on anything before (R52, R98, R99; log entry
11). -/
def Obligations.BlockCommandUsesTheLatestKey : Prop :=
  ∀ (s s' : State) (c : Configuration) (key bad : List Byte) (i : Instr),
    (∃ din, i = .encrypt din ∨ i = .decrypt din) →
    s.build = .built c → s'.build = .built c → s.inReset = false → s'.inReset = false →
    s.st ≠ .constructing → s'.st ≠ .constructing → key.length = c.KB → bad.length ≠ c.KB →
      ∃ t t' u' v v', exec (.keyload key) s = .next t ∧ exec i t = .next v ∧
        exec (.keyload key) s' = .next t' ∧ exec (.keyload bad) t' = .next u' ∧ exec i u' = .next v' ∧
        v.rsp = v'.rsp ∧ v.rsp ≠ none ∧ v.kx = t.kx ∧ v'.kx.S = t.kx.S

/-! ### Errors and responses -/

/-- The status codes and the response header: `RH[1:0] = status`, `RH[5:2] = rlen` (R65, R130). -/
def Obligations.ResponseHeaderCodes : Prop :=
  (Status.code .ok).toNat = 0 ∧ (Status.code (.error .unsupportedWordSize)).toNat = 1 ∧
  (Status.code (.error .unsupportedKeyLength)).toNat = 2 ∧
  (Status.code (.error .invalidPlainTextSize)).toNat = 3 ∧
  ∀ ρ : Response, ρ.data.length < 16 →
    ρ.header.toNat = ρ.status.code.toNat + 4 * ρ.data.length ∧ ρ.rlen.toNat = ρ.data.length

/-- All or nothing: a command that takes a next state either was not accepted and changed nothing, or raised its own
error kind with no data and changed nothing else, or succeeded, KEYLOAD with no data and a block command with all 8
bytes (R130, R135, R139).  That a KEYLOAD that fails keeps the old key and everything else is the spec's own decision
D10 (log entry 11); that a command not accepted is a step that changes nothing is the model's (log entry 8). -/
def Obligations.OutputsAreAllOrNothing : Prop :=
  (∀ key s t, exec (.keyload key) s = .next t →
    t = s ∨
    t = { s with rsp := some { status := .error .unsupportedKeyLength, data := [] }, port := none } ∨
    (t.rsp = some { status := .ok, data := [] } ∧ t.port = none ∧ t.st = .ready)) ∧
  (∀ i s t, (∃ din, i = .encrypt din ∨ i = .decrypt din) → exec i s = .next t →
    t = s ∨
    t = { s with rsp := some { status := .error .invalidPlainTextSize, data := [] }, port := none } ∨
    (∃ dout, dout.length = 8 ∧ t.rsp = some { status := .ok, data := dout } ∧ t.port = none))

/-- Every accepted command finishes with exactly one response and leaves the port free, whatever its payload
(R65, R136, R160). -/
def Obligations.EveryAcceptedCommandIsAnswered : Prop :=
  ∀ (s : State) (c : Configuration) (payload : List Byte), s.build = .built c →
    (s.acceptsKeyload = true → ∃ t ρ, exec (.keyload payload) s = .next t ∧ t.rsp = some ρ ∧ t.port = none) ∧
    (s.acceptsBlock = true →
      (∃ t ρ, exec (.encrypt payload) s = .next t ∧ t.rsp = some ρ ∧ t.port = none) ∧
      (∃ t ρ, exec (.decrypt payload) s = .next t ∧ t.rsp = some ρ ∧ t.port = none))

/-- Opcode 00 is refused in every state, before anything else is looked at, and so is a step that presents it
(R66, R138). -/
def Obligations.ReservedOpcodeIsRefused : Prop :=
  ∀ (s : State) (payload : List Byte),
    exec (.reserved payload) s = .refused .reservedOpcode ∧
    (∀ rest, s.host = .present { op := 0#2, payload := payload } :: rest → payload.length < 2 ^ s.lenw →
      step s = .refused .reservedOpcode)

/-! ### Rules of the whole machine -/

/-- The transitions of `st`, complete list (R21): it changes only by a KEYLOAD whose length check passes, to `READY`, or
by reset, to `UNKEYED`.  Building a core counts as its reset (log entry 5); that a KEYLOAD that fails leaves `st` is the
spec's own decision D10 (log entry 11). -/
def Obligations.EngineStateTransitionsAreComplete : Prop :=
  ∀ s t : State, step s = .next t →
    t.st = s.st ∨
    (t.st = .unkeyed ∧ s.action = .releaseReset ∧ s.inReset = true) ∨
    (t.st = .unkeyed ∧ ∃ w r kb, s.action = .build w r kb) ∨
    (t.st = .ready ∧ s.inReset = false ∧ s.st ≠ .constructing ∧
      ∃ c f key, s.build = .built c ∧ s.offered = some f ∧ decode s.lenw f = .ok (.keyload key) ∧
        key.length = c.KB)

/-- `S` is written only by a KEYLOAD that succeeds, and lost only by reset; no block operation and no error changes
it (R22, R48, R99, R139, R148).  That a KEYLOAD that fails leaves `S` is the spec's own decision D10 (log entry 11);
that building a core leaves it open, as a reset does, is the model's (log entry 5). -/
def Obligations.TableIsWrittenOnlyByKeyload : Prop :=
  ∀ s t : State, step s = .next t →
    t.kx.S = s.kx.S ∨
    (s.action = .releaseReset ∧ s.inReset = true) ∨
    (∃ w r kb, s.action = .build w r kb) ∨
    (t.st = .ready ∧ t.rsp = some { status := .ok, data := [] } ∧
      ∃ c f key, s.build = .built c ∧ s.offered = some f ∧ decode s.lenw f = .ok (.keyload key) ∧
        key.length = c.KB)

/-- The invariant holds right after reset.  Its ranges hold of the values log entry 2 names. -/
def Obligations.ResetMeetsTheInvariant : Prop := State.reset.inv = true

/-- Every step keeps the invariant: `CONSTRUCTING` is never seen between steps (R31, R97), every response is one a
command can have and status 1 is never produced (R65, R131, R135), the register files keep their sizes and the
counters their ranges (R22, R23, R25, R27).  That the counters are in their ranges after a release of reset or a build,
where R34 leaves them unspecified, is the model's choice, log entry 3. -/
def Obligations.StepKeepsTheInvariant : Prop :=
  ∀ s t : State, s.inv = true → step s = .next t → t.inv = true

/-- A core whose host sends no opcode 00, no value that is no frame and no second `CONFIG` always takes a step (R66, R70,
R160), for every state that keeps the invariant.  A block command before a key, which R70 asks the host not to send,
is included: that it is a waiting step is the model's, log entry 8.  That the counters are in their ranges after a
reset, as the invariant says, is log entry 3. -/
def Obligations.DutifulHostIsNeverRefused : Prop :=
  ∀ (s : State) (c : Configuration), s.inv = true → s.build = .built c → s.hostDuty = true →
    ∃ t, step s = .next t ∧ t.inv = true ∧ t.build = .built c

/-- A core that exists refuses three things only: opcode 00 (R66), a value no frame can hold (R61), and a second
`CONFIG`.  That a second `CONFIG` is refused is the model's (log entry 5), and so is that a command not accepted is a
waiting step and no refusal (log entry 8). -/
def Obligations.RefusalsAreComplete : Prop :=
  ∀ (s : State) (c : Configuration) (why : Refusal), s.build = .built c → step s = .refused why →
    (why = .reservedOpcode ∧ ∃ f, s.offered = some f ∧ f.op = 0#2) ∨
    (why = .undecodable .lengthNotExpressible ∧ ∃ f, s.offered = some f ∧ 2 ^ s.lenw ≤ f.payload.length) ∨
    (why = .coreAlreadyBuilt ∧ ∃ w r kb, s.action = .build w r kb)

/-- A block command held on the port of an unkeyed core waits for ever: no number of steps changes anything
(R115, R155; that waiting is a step is the model's, log entry 8). -/
def Obligations.BlockCommandBeforeKeyIsStuck : Prop :=
  ∀ (s : State) (c : Configuration) (f : Frame) (i : Instr) (n : Nat),
    (∃ din, i = .encrypt din ∨ i = .decrypt din) →
    s.build = .built c → s.st = .unkeyed → s.host = [] → s.port = some f → decode s.lenw f = .ok i →
      runSteps n s = .next s

/-- A frame that was presented but not accepted and is then withdrawn, or replaced by another, is as if it had never
been presented (R70, R115).  The list of host actions is the model's (log entry 7), and so is that the unaccepted
command is a waiting step (log entry 8). -/
def Obligations.WithdrawnFrameLeavesNoTrace : Prop :=
  ∀ (s : State) (c : Configuration) (f : Frame) (i : Instr) (rest : List HostAction),
    (∃ din, i = .encrypt din ∨ i = .decrypt din) →
    s.build = .built c → s.st ≠ .ready → decode s.lenw f = .ok i →
      (s.host = .present f :: .withdraw :: rest →
        ∃ t, step s = .next t ∧ step t = .next { s with host := rest, port := none }) ∧
      (∀ g, s.host = .present f :: .present g :: rest →
        ∃ t, step s = .next t ∧ step t = step { s with host := .present g :: rest })

/-- Block commands never affect each other: in either order each gets the response it gets alone (R52, R116). -/
def Obligations.BlockCommandsCommute : Prop :=
  ∀ (s : State) (c : Configuration) (i j : Instr),
    (∃ din, i = .encrypt din ∨ i = .decrypt din) → (∃ din, j = .encrypt din ∨ j = .decrypt din) →
    s.build = .built c → s.inReset = false → s.st = .ready →
      ∃ t u t' u', exec i s = .next t ∧ exec j t = .next u ∧ exec j s = .next t' ∧ exec i t' = .next u' ∧
        u'.rsp = t.rsp ∧ u.rsp = t'.rsp ∧ u.kx = s.kx ∧ u'.kx = s.kx

/-- Whether the host waits for each response or presents its frames back to back makes no difference to the end
state (R71; the list of host actions is the model's, log entry 7). -/
def Obligations.BackToBackFramesEndAlike : Prop :=
  ∀ (frames : List Frame) (s t : State) (responses : List Response), s.host = [] →
    runFrames frames s = some (responses, t) →
      responses.length = frames.length ∧
      runSteps frames.length { s with host := frames.map .present } = .next t
end

