-- ==== Sys2Proof/Laws/State.lean ====
section
/-! SUPPORT. One lemma per field per update of the state, each true by rfl, so that no later proof unfolds a record
update. -/

namespace Sys2Proof.Machine

variable (s : State)

@[simp] theorem State.answered_lenw (ρ : Response) : (s.answered ρ).lenw = s.lenw := rfl
@[simp] theorem State.answered_build (ρ : Response) : (s.answered ρ).build = s.build := rfl
@[simp] theorem State.answered_st (ρ : Response) : (s.answered ρ).st = s.st := rfl
@[simp] theorem State.answered_kx (ρ : Response) : (s.answered ρ).kx = s.kx := rfl
@[simp] theorem State.answered_dp (ρ : Response) : (s.answered ρ).dp = s.dp := rfl
@[simp] theorem State.answered_rsp (ρ : Response) : (s.answered ρ).rsp = some ρ := rfl
@[simp] theorem State.answered_inReset (ρ : Response) : (s.answered ρ).inReset = s.inReset := rfl
@[simp] theorem State.answered_port (ρ : Response) : (s.answered ρ).port = none := rfl
@[simp] theorem State.answered_host (ρ : Response) : (s.answered ρ).host = s.host := rfl
@[simp] theorem State.answered_draws (ρ : Response) : (s.answered ρ).draws = s.draws := rfl

@[simp] theorem State.setDatapath_lenw (d : Datapath) : (s.setDatapath d).lenw = s.lenw := rfl
@[simp] theorem State.setDatapath_build (d : Datapath) : (s.setDatapath d).build = s.build := rfl
@[simp] theorem State.setDatapath_st (d : Datapath) : (s.setDatapath d).st = s.st := rfl
@[simp] theorem State.setDatapath_kx (d : Datapath) : (s.setDatapath d).kx = s.kx := rfl
@[simp] theorem State.setDatapath_dp (d : Datapath) : (s.setDatapath d).dp = d := rfl
@[simp] theorem State.setDatapath_rsp (d : Datapath) : (s.setDatapath d).rsp = s.rsp := rfl
@[simp] theorem State.setDatapath_inReset (d : Datapath) : (s.setDatapath d).inReset = s.inReset := rfl
@[simp] theorem State.setDatapath_port (d : Datapath) : (s.setDatapath d).port = s.port := rfl
@[simp] theorem State.setDatapath_host (d : Datapath) : (s.setDatapath d).host = s.host := rfl
@[simp] theorem State.setDatapath_draws (d : Datapath) : (s.setDatapath d).draws = s.draws := rfl

@[simp] theorem State.setPort_lenw (p : Option Frame) : (s.setPort p).lenw = s.lenw := rfl
@[simp] theorem State.setPort_build (p : Option Frame) : (s.setPort p).build = s.build := rfl
@[simp] theorem State.setPort_st (p : Option Frame) : (s.setPort p).st = s.st := rfl
@[simp] theorem State.setPort_kx (p : Option Frame) : (s.setPort p).kx = s.kx := rfl
@[simp] theorem State.setPort_dp (p : Option Frame) : (s.setPort p).dp = s.dp := rfl
@[simp] theorem State.setPort_rsp (p : Option Frame) : (s.setPort p).rsp = s.rsp := rfl
@[simp] theorem State.setPort_inReset (p : Option Frame) : (s.setPort p).inReset = s.inReset := rfl
@[simp] theorem State.setPort_port (p : Option Frame) : (s.setPort p).port = p := rfl
@[simp] theorem State.setPort_host (p : Option Frame) : (s.setPort p).host = s.host := rfl
@[simp] theorem State.setPort_draws (p : Option Frame) : (s.setPort p).draws = s.draws := rfl

@[simp] theorem State.dropAction_lenw : (s.dropAction).lenw = s.lenw := rfl
@[simp] theorem State.dropAction_build : (s.dropAction).build = s.build := rfl
@[simp] theorem State.dropAction_st : (s.dropAction).st = s.st := rfl
@[simp] theorem State.dropAction_kx : (s.dropAction).kx = s.kx := rfl
@[simp] theorem State.dropAction_dp : (s.dropAction).dp = s.dp := rfl
@[simp] theorem State.dropAction_rsp : (s.dropAction).rsp = s.rsp := rfl
@[simp] theorem State.dropAction_inReset : (s.dropAction).inReset = s.inReset := rfl
@[simp] theorem State.dropAction_port : (s.dropAction).port = s.port := rfl
@[simp] theorem State.dropAction_host : (s.dropAction).host = s.host.tail := rfl
@[simp] theorem State.dropAction_draws : (s.dropAction).draws = s.draws := rfl

@[simp] theorem State.assertReset_lenw : (s.assertReset).lenw = s.lenw := rfl
@[simp] theorem State.assertReset_build : (s.assertReset).build = s.build := rfl
@[simp] theorem State.assertReset_st : (s.assertReset).st = s.st := rfl
@[simp] theorem State.assertReset_kx : (s.assertReset).kx = s.kx := rfl
@[simp] theorem State.assertReset_dp : (s.assertReset).dp = s.dp := rfl
@[simp] theorem State.assertReset_rsp : (s.assertReset).rsp = s.rsp := rfl
@[simp] theorem State.assertReset_inReset : (s.assertReset).inReset = true := rfl
@[simp] theorem State.assertReset_port : (s.assertReset).port = none := rfl
@[simp] theorem State.assertReset_host : (s.assertReset).host = s.host := rfl
@[simp] theorem State.assertReset_draws : (s.assertReset).draws = s.draws := rfl

@[simp] theorem State.afterReset_lenw (c : Configuration) : (s.afterReset c).lenw = s.lenw := rfl
@[simp] theorem State.afterReset_build (c : Configuration) : (s.afterReset c).build = s.build := rfl
@[simp] theorem State.afterReset_st (c : Configuration) : (s.afterReset c).st = .unkeyed := rfl
@[simp] theorem State.afterReset_kx (c : Configuration) : (s.afterReset c).kx = freeKeyExpander c s.draws := rfl
@[simp] theorem State.afterReset_dp (c : Configuration) : (s.afterReset c).dp = freeDatapath c s.draws := rfl
@[simp] theorem State.afterReset_rsp (c : Configuration) : (s.afterReset c).rsp = none := rfl
@[simp] theorem State.afterReset_inReset (c : Configuration) : (s.afterReset c).inReset = s.inReset := rfl
@[simp] theorem State.afterReset_port (c : Configuration) : (s.afterReset c).port = none := rfl
@[simp] theorem State.afterReset_host (c : Configuration) : (s.afterReset c).host = s.host := rfl
@[simp] theorem State.afterReset_draws (c : Configuration) : (s.afterReset c).draws = s.draws + c.T + c.C + 5 := rfl

@[simp] theorem construct_lenw (c : Configuration) (key : List Byte) : (construct c key s).lenw = s.lenw := rfl
@[simp] theorem construct_build (c : Configuration) (key : List Byte) : (construct c key s).build = s.build := rfl
@[simp] theorem construct_st (c : Configuration) (key : List Byte) : (construct c key s).st = .ready := rfl
@[simp] theorem construct_kx (c : Configuration) (key : List Byte) : (construct c key s).kx = expandKey c key := rfl
@[simp] theorem construct_dp (c : Configuration) (key : List Byte) : (construct c key s).dp = s.dp := rfl
@[simp] theorem construct_rsp (c : Configuration) (key : List Byte) : (construct c key s).rsp = s.rsp := rfl
@[simp] theorem construct_inReset (c : Configuration) (key : List Byte) : (construct c key s).inReset = s.inReset := rfl
@[simp] theorem construct_port (c : Configuration) (key : List Byte) : (construct c key s).port = s.port := rfl
@[simp] theorem construct_host (c : Configuration) (key : List Byte) : (construct c key s).host = s.host := rfl
@[simp] theorem construct_draws (c : Configuration) (key : List Byte) : (construct c key s).draws = s.draws := rfl

/-- Releasing reset never changes the format parameter. -/
@[simp] theorem State.releaseReset_lenw : s.releaseReset.lenw = s.lenw := by
  unfold State.releaseReset
  split
  · split <;> rfl
  · rfl

/-- Releasing reset never changes the configuration (40_configuration.md R83). -/
@[simp] theorem State.releaseReset_build : s.releaseReset.build = s.build := by
  unfold State.releaseReset
  split
  · split <;> rfl
  · rfl

/-- Releasing reset never touches what the host will do. -/
@[simp] theorem State.releaseReset_host : s.releaseReset.host = s.host := by
  unfold State.releaseReset
  split
  · split <;> rfl
  · rfl

/-- Releasing an input that is not asserted does nothing. -/
theorem State.releaseReset_of_not_inReset (h : s.inReset = false) : s.releaseReset = s := by
  simp [State.releaseReset, h]

/-- Releasing reset on a core that exists gives its reset state (70_reset_and_hazards.md R151). -/
theorem State.releaseReset_built {c : Configuration} (hr : s.inReset = true) (hb : s.build = .built c) :
    s.releaseReset = State.afterReset c { s with inReset := false } := by
  simp [State.releaseReset, hr, hb]

end Sys2Proof.Machine
end

