-- ==== Sys2Proof/Laws/Ops.lean ====
section
/-! SUPPORT. What each shared operation can do, said once: acceptance, the answers of a command, the sizes of the
register files, and the inversion of every meaning. -/

namespace Sys2Proof.Machine

theorem respond_eq (ρ : Response) (s : State) : respond ρ s = .next (s.answered ρ) := rfl

theorem raise_eq (e : ErrorKind) (s : State) :
    raise e s = .next (s.answered { status := .error e, data := [] }) := rfl

theorem wait_eq (s : State) : wait s = .next s := rfl

@[simp] theorem acceptsKeyload_iff (s : State) :
    s.acceptsKeyload = true ↔ s.inReset = false ∧ s.st ≠ .constructing := by
  simp [State.acceptsKeyload]

@[simp] theorem acceptsBlock_iff (s : State) : s.acceptsBlock = true ↔ s.inReset = false ∧ s.st = .ready := by
  simp [State.acceptsBlock]

/-- On a core that exists an operation runs with its configuration. -/
theorem onCore_built {s : State} {c : Configuration} (hb : s.build = .built c)
    (run : Configuration → Host.Outcome State Fault Refusal) : onCore s run = run c := by
  simp [onCore, hb]

/-- Where no core exists nothing runs (R80). -/
theorem onCore_noCore {s : State} (hb : ∀ c, s.build ≠ .built c)
    (run : Configuration → Host.Outcome State Fault Refusal) : onCore s run = .refused .noCore := by
  unfold onCore
  split
  · next c h => exact absurd h (hb c)
  · rfl
  · rfl

/-- An operation that answers a next state ran on a core that exists. -/
theorem onCore_next {s t : State} {run : Configuration → Host.Outcome State Fault Refusal}
    (h : onCore s run = .next t) : ∃ c, s.build = .built c ∧ run c = .next t := by
  unfold onCore at h
  split at h
  · next c hb => exact ⟨c, hb, h⟩
  · exact nomatch h
  · exact nomatch h

/-! The derived parameters (00_scope.md R8). -/

@[simp] theorem bytesPerWord_eq (c : Configuration) : c.U = 4 := by
  simp [Configuration.U, Configuration.W]

@[simp] theorem blk_eq (c : Configuration) : c.BLK = 8 := by
  simp [Configuration.BLK]

@[simp] theorem tableSize_eq (c : Configuration) : c.T = 2 * (c.R + 1) := rfl

@[simp] theorem mixCount_eq (c : Configuration) : c.NMIX = 3 * c.T := rfl

theorem keyWords_eq (c : Configuration) : c.C = c.KB / 4 := by
  simp [Configuration.C]

theorem legal_iff (lenw : Nat) (c : Configuration) :
    c.legal lenw = true ↔ 1 ≤ c.R ∧ 4 ≤ c.KB ∧ c.KB % 4 = 0 ∧ c.KB < 2 ^ lenw ∧ 8 < 2 ^ lenw := by
  simp [Configuration.legal, and_assoc]

/-! The register files keep their sizes. -/

@[simp] theorem setEntry_length (file : List Word) (n : Nat) (v : Word) :
    (setEntry file n v).length = file.length := by
  simp [setEntry]

@[simp] theorem entry_setEntry_self {file : List Word} {n : Nat} (h : n < file.length) (v : Word) :
    entry (setEntry file n v) n = v := by
  simp [entry, setEntry, h]

@[simp] theorem entry_setEntry_other (file : List Word) {n m : Nat} (h : n ≠ m) (v : Word) :
    entry (setEntry file n v) m = entry file m := by
  simp [entry, setEntry, List.getElem?_set_ne h, List.getD]

@[simp] theorem freeWords_length (d n : Nat) : (freeWords d n).length = n := by
  simp [freeWords]

@[simp] theorem progression_length (n : Nat) (v : Word) : (progression n v).length = n := by
  induction n generalizing v with
  | zero => rfl
  | succ n ih => simp [progression, ih]

@[simp] theorem packDown_length (c : Configuration) (key : List Byte) (n : Nat) (L : List Word) :
    (packDown c key n L).length = L.length := by
  induction n generalizing L with
  | zero => rfl
  | succ n ih => simp [packDown, ih, packByte]

@[simp] theorem packKey_length (c : Configuration) (key : List Byte) : (packKey c key).length = c.C := by
  simp [packKey]

@[simp] theorem mixStep_S_length (c : Configuration) (x : KeyExpander) : (mixStep c x).S.length = x.S.length := by
  simp [mixStep, mixCursors, mixKey, mixTable]

@[simp] theorem mixStep_L_length (c : Configuration) (x : KeyExpander) : (mixStep c x).L.length = x.L.length := by
  simp [mixStep, mixCursors, mixKey, mixTable]

@[simp] theorem mixStep_idx (c : Configuration) (x : KeyExpander) : (mixStep c x).idx = x.idx := rfl

@[simp] theorem mixStep_i (c : Configuration) (x : KeyExpander) : (mixStep c x).i = (x.i + 1) % c.T := rfl

@[simp] theorem mixStep_j (c : Configuration) (x : KeyExpander) : (mixStep c x).j = (x.j + 1) % c.C := rfl

@[simp] theorem mixStep_k (c : Configuration) (x : KeyExpander) : (mixStep c x).k = x.k + 1 := rfl

@[simp] theorem mixSteps_S_length (c : Configuration) (n : Nat) (x : KeyExpander) :
    (mixSteps c n x).S.length = x.S.length := by
  induction n generalizing x with
  | zero => rfl
  | succ n ih => simp [mixSteps, ih]

@[simp] theorem mixSteps_L_length (c : Configuration) (n : Nat) (x : KeyExpander) :
    (mixSteps c n x).L.length = x.L.length := by
  induction n generalizing x with
  | zero => rfl
  | succ n ih => simp [mixSteps, ih]

@[simp] theorem mixSteps_k (c : Configuration) (n : Nat) (x : KeyExpander) : (mixSteps c n x).k = x.k + n := by
  induction n generalizing x with
  | zero => rfl
  | succ n ih => simp only [mixSteps, ih, mixStep_k]; omega

@[simp] theorem mixSteps_idx (c : Configuration) (n : Nat) (x : KeyExpander) : (mixSteps c n x).idx = x.idx := by
  induction n generalizing x with
  | zero => rfl
  | succ n ih => simp [mixSteps, ih]

/-- Mixing one step more is one step after the others. -/
theorem mixSteps_succ (c : Configuration) (n : Nat) (x : KeyExpander) :
    mixSteps c (n + 1) x = mixStep c (mixSteps c n x) := by
  induction n generalizing x with
  | zero => rfl
  | succ n ih => exact ih (mixStep c x)

@[simp] theorem memWrite_length (buf : List Byte) (off : Nat) (v : Word) :
    (memWrite buf off v).length = buf.length := by
  simp [memWrite]

/-- A block operation's answer has all 8 bytes (60_exceptions.md R135). -/
@[simp] theorem storeBlock_length (AB : Word × Word) : (storeBlock AB).length = 8 := by
  simp [storeBlock]

/-- Encryption rounds counted from the last one. -/
theorem encRounds_succ (S : List Word) (n : Nat) (AB : Word × Word) :
    encRounds S (n + 1) AB = encRound S (n + 1) (encRounds S n AB) := rfl

/-- Decryption rounds counted from the first one. -/
theorem decRounds_succ (S : List Word) (n : Nat) (AB : Word × Word) :
    decRounds S (n + 1) AB = decRounds S n (decRound S (n + 1) AB) := rfl

/-! What each meaning can do. -/

/-- KEYLOAD on a core that exists. -/
theorem execKeyload_built {s : State} {c : Configuration} (hb : s.build = .built c) (key : List Byte) :
    execKeyload key s =
      if s.acceptsKeyload then
        if key.length ≠ c.KB then raise .unsupportedKeyLength s
        else respond { status := .ok, data := [] } (construct c key s)
      else wait s :=
  onCore_built hb _

/-- A block operation on a core that exists. -/
theorem blockOp_built {s : State} {c : Configuration} (hb : s.build = .built c)
    (f : Configuration → List Word → Word × Word → Word × Word) (lastRound : Configuration → Nat) (din : List Byte) :
    blockOp f lastRound din s =
      if s.acceptsBlock then
        if din.length ≠ 8 then raise .invalidPlainTextSize s
        else
          respond { status := .ok, data := storeBlock (f c s.kx.S (loadBlock din)) }
            (s.setDatapath
              { A := (f c s.kx.S (loadBlock din)).1
                B := (f c s.kx.S (loadBlock din)).2
                r := lastRound c })
      else wait s := by
  rw [blockOp, onCore_built hb, blk_eq]

/-- KEYLOAD, if it answers a next state: it waited, raised its one error, or built the engine (R90). -/
theorem execKeyload_cases {key : List Byte} {s t : State} (h : execKeyload key s = .next t) :
    ∃ c, s.build = .built c ∧
      ((s.acceptsKeyload = false ∧ t = s) ∨
        (s.acceptsKeyload = true ∧ key.length ≠ c.KB ∧
          t = s.answered { status := .error .unsupportedKeyLength, data := [] }) ∨
        (s.acceptsKeyload = true ∧ key.length = c.KB ∧
          t = (construct c key s).answered { status := .ok, data := [] })) := by
  obtain ⟨c, hb, h⟩ := onCore_next h
  refine ⟨c, hb, ?_⟩
  cases ha : s.acceptsKeyload with
  | false =>
    rw [if_neg (by simp [ha])] at h
    exact .inl ⟨rfl, (Host.Outcome.next.inj h).symm⟩
  | true =>
    rw [if_pos ha] at h
    by_cases hl : key.length = c.KB
    · rw [if_neg (by simp [hl])] at h
      exact .inr (.inr ⟨rfl, hl, (Host.Outcome.next.inj h).symm⟩)
    · rw [if_pos hl] at h
      exact .inr (.inl ⟨rfl, hl, (Host.Outcome.next.inj h).symm⟩)

/-- A block operation, if it answers a next state: it waited, raised its one error, or answered 8 bytes
(R110, R111, R114 to R116). -/
theorem blockOp_cases {f : Configuration → List Word → Word × Word → Word × Word} {lastRound : Configuration → Nat}
    {din : List Byte} {s t : State} (h : blockOp f lastRound din s = .next t) :
    ∃ c, s.build = .built c ∧
      ((s.acceptsBlock = false ∧ t = s) ∨
        (s.acceptsBlock = true ∧ din.length ≠ 8 ∧
          t = s.answered { status := .error .invalidPlainTextSize, data := [] }) ∨
        (s.acceptsBlock = true ∧ din.length = 8 ∧
          t = (s.setDatapath
            { A := (f c s.kx.S (loadBlock din)).1, B := (f c s.kx.S (loadBlock din)).2, r := lastRound c }).answered
              { status := .ok, data := storeBlock (f c s.kx.S (loadBlock din)) })) := by
  obtain ⟨c, hb, h⟩ := onCore_next h
  refine ⟨c, hb, ?_⟩
  cases ha : s.acceptsBlock with
  | false =>
    rw [if_neg (by simp [ha])] at h
    exact .inl ⟨rfl, (Host.Outcome.next.inj h).symm⟩
  | true =>
    rw [if_pos ha] at h
    rw [blk_eq] at h
    by_cases hl : din.length = 8
    · rw [if_neg (by simp [hl])] at h
      exact .inr (.inr ⟨rfl, hl, (Host.Outcome.next.inj h).symm⟩)
    · rw [if_pos hl] at h
      exact .inr (.inl ⟨rfl, hl, (Host.Outcome.next.inj h).symm⟩)

/-- CONFIG, if it answers a next state: no core existed, and it raised its one error or built a core (R80, R82). -/
theorem execConfig_cases {w r kb : Int} {s t : State} (h : execConfig w r kb s = .next t) :
    (∀ c, s.build ≠ .built c) ∧
      ((w ≠ 32 ∧ t = { s with build := .failed .unsupportedWordSize }) ∨
        (w = 32 ∧ Configuration.legal s.lenw { R := r.toNat, KB := kb.toNat } = true ∧
          t = State.afterReset { R := r.toNat, KB := kb.toNat }
            { s with build := .built { R := r.toNat, KB := kb.toNat } })) := by
  have key : ∀ h' : buildCore w r kb s = .next t,
      (w ≠ 32 ∧ t = { s with build := .failed .unsupportedWordSize }) ∨
        (w = 32 ∧ Configuration.legal s.lenw { R := r.toNat, KB := kb.toNat } = true ∧
          t = State.afterReset { R := r.toNat, KB := kb.toNat }
            { s with build := .built { R := r.toNat, KB := kb.toNat } }) := by
    intro h'
    unfold buildCore at h'
    split at h'
    · next hw => exact .inl ⟨hw, (Host.Outcome.next.inj h').symm⟩
    · next hw =>
      split at h'
      · next hl => exact .inr ⟨by simpa using hw, hl, (Host.Outcome.next.inj h').symm⟩
      · exact nomatch h'
  unfold execConfig at h
  split at h
  · exact nomatch h
  · next hb => exact ⟨fun c => by simp [hb], key h⟩
  · next hb => exact ⟨fun c => by simp [hb], key h⟩

/-- The core on its port: idle, or the presented frame decoded and run, or no frame at all. -/
theorem serve_next {s t : State} (h : serve s = .next t) :
    (s.port = none ∧ t = s) ∨
      ∃ f i, s.port = some f ∧ decode s.lenw f = .ok i ∧ exec i s = .next t := by
  unfold serve at h
  split at h
  · next hp => exact .inl ⟨hp, (Host.Outcome.next.inj h).symm⟩
  · next f hp =>
    split at h
    · next i hd => exact .inr ⟨f, i, hp, hd, h⟩
    · exact nomatch h

/-- What a step that answers a next state did: the host's action, and then the core on its port. -/
theorem step_next {s t : State} (h : step s = .next t) :
    (s.action = .hold ∧ serve s.dropAction = .next t) ∨
      (∃ f, s.action = .present f ∧ serve (s.dropAction.setPort (some f)) = .next t) ∨
      (s.action = .withdraw ∧ serve (s.dropAction.setPort none) = .next t) ∨
      (s.action = .assertReset ∧ t = s.dropAction.assertReset) ∨
      (s.action = .releaseReset ∧ t = s.dropAction.releaseReset) ∨
      (∃ w r kb, s.action = .build w r kb ∧ execConfig w r kb s.dropAction = .next t) := by
  unfold step at h
  split at h
  · next ha => exact .inl ⟨ha, h⟩
  · next f ha => exact .inr (.inl ⟨f, ha, h⟩)
  · next ha => exact .inr (.inr (.inl ⟨ha, h⟩))
  · next ha => exact .inr (.inr (.inr (.inl ⟨ha, (Host.Outcome.next.inj h).symm⟩)))
  · next ha => exact .inr (.inr (.inr (.inr (.inl ⟨ha, (Host.Outcome.next.inj h).symm⟩))))
  · next w r kb ha => exact .inr (.inr (.inr (.inr (.inr ⟨w, r, kb, ha, h⟩))))

/-- What the host will do next plays no part in the meaning of a command. -/
theorem exec_setHost {i : Instr} {s t : State} (hn : ∀ w r kb, i ≠ .config w r kb) (he : exec i s = .next t)
    (h : List HostAction) : exec i { s with host := h } = .next { t with host := h } := by
  have block : ∀ (f : Configuration → List Word → Word × Word → Word × Word) (l : Configuration → Nat) (p : List Byte),
      blockOp f l p s = .next t → blockOp f l p { s with host := h } = .next { t with host := h } := by
    intro f l p hp
    obtain ⟨c, hb, hc⟩ := blockOp_cases hp
    have hb' : ({ s with host := h } : State).build = .built c := hb
    have ha' : State.acceptsBlock { s with host := h } = s.acceptsBlock := rfl
    rw [blockOp_built hb', ha']
    rcases hc with ⟨ha, ht⟩ | ⟨ha, hl, ht⟩ | ⟨ha, hl, ht⟩
    · rw [ha]; subst ht; rfl
    · rw [ha]; subst ht; simp [hl]; rfl
    · rw [ha]; subst ht; simp [hl]; rfl
  cases i with
  | config w r kb => exact absurd rfl (hn w r kb)
  | reserved p => exact nomatch he
  | encrypt p => exact block _ _ p he
  | decrypt p => exact block _ _ p he
  | keyload p =>
    obtain ⟨c, hb, hc⟩ := execKeyload_cases he
    have hb' : ({ s with host := h } : State).build = .built c := hb
    have ha' : State.acceptsKeyload { s with host := h } = s.acceptsKeyload := rfl
    refine (execKeyload_built hb' p).trans ?_
    rw [ha']
    rcases hc with ⟨ha, ht⟩ | ⟨ha, hl, ht⟩ | ⟨ha, hl, ht⟩
    · rw [ha]; subst ht; rfl
    · rw [ha]; subst ht; simp [hl]; rfl
    · rw [ha]; subst ht; simp [hl]; rfl

/-- No frame decodes to `CONFIG` (30_encoding.md R67). -/
theorem opcodeMap_ne_config (f : Frame) (w r kb : Int) : opcodeMap f ≠ .config w r kb := by
  unfold opcodeMap
  split_ifs <;> simp

/-- What a decoded frame was. -/
theorem decode_ok {lenw : Nat} {f : Frame} {i : Instr} (h : decode lenw f = .ok i) :
    i = opcodeMap f ∧ f.payload.length < 2 ^ lenw := by
  unfold decode at h
  split at h
  · next hl => exact ⟨(Except.ok.inj h).symm, hl⟩
  · exact nomatch h

end Sys2Proof.Machine
end

