-- ==== Sys2Proof/Laws/PerInstr.lean ====
section
/-! SUPPORT. Statements about every instruction as syntax, one lemma per constructor: the frame an instruction is
encoded in decodes to it (30_encoding.md R63, R64). -/

namespace Sys2Proof.Laws.Encoding

/-- A well-formed instruction's frame decodes to that instruction. -/
def Statement (i : Instr) : Prop :=
  ∀ lenw f, i.wellFormed lenw = true → encode i = some f → decode lenw f = .ok i

theorem config (w r kb : Int) : Statement (.config w r kb) := by
  intro lenw f _ h
  exact nomatch h

theorem keyload (key : List Byte) : Statement (.keyload key) := by
  intro lenw f hw h
  obtain rfl := Option.some.inj h
  simp_all [decode, opcodeMap, Instr.wellFormed]

theorem encrypt (din : List Byte) : Statement (.encrypt din) := by
  intro lenw f hw h
  obtain rfl := Option.some.inj h
  simp_all [decode, opcodeMap, Instr.wellFormed]

theorem decrypt (din : List Byte) : Statement (.decrypt din) := by
  intro lenw f hw h
  obtain rfl := Option.some.inj h
  simp_all [decode, opcodeMap, Instr.wellFormed]

theorem reserved (payload : List Byte) : Statement (.reserved payload) := by
  intro lenw f hw h
  obtain rfl := Option.some.inj h
  simp_all [decode, opcodeMap, Instr.wellFormed]

end Sys2Proof.Laws.Encoding
end

