-- ==== Sys2Proof/Laws/Safety.lean ====
section
/-! SUPPORT. The checks of Safety.lean as propositions. -/

namespace Sys2Proof.Machine

theorem KeyExpander.fits_iff (c : Configuration) (x : KeyExpander) :
    x.fits c = true ↔
      x.S.length = c.T ∧ x.L.length = c.C ∧ x.i < c.T ∧ x.j < c.C ∧ x.k ≤ c.NMIX ∧ x.idx < c.KB := by
  simp only [KeyExpander.fits, Bool.and_eq_true, decide_eq_true_eq, and_assoc]

theorem Datapath.fits_iff (c : Configuration) (d : Datapath) : d.fits c = true ↔ 1 ≤ d.r ∧ d.r ≤ c.R := by
  simp only [Datapath.fits, Bool.and_eq_true, decide_eq_true_eq]

theorem State.coreFits_built {s : State} {c : Configuration} (hb : s.build = .built c) :
    s.coreFits = true ↔ c.legal s.lenw = true ∧ s.kx.fits c = true ∧ s.dp.fits c = true := by
  simp only [State.coreFits, hb, Bool.and_eq_true, and_assoc]

/-- The fields the check of the core looks at. -/
theorem State.coreFits_congr {s t : State} (hl : t.lenw = s.lenw) (hb : t.build = s.build) (hs : t.st = s.st)
    (hk : t.kx = s.kx) (hd : t.dp = s.dp) : t.coreFits = s.coreFits := by
  simp only [State.coreFits, hl, hb, hs, hk, hd]

theorem State.inv_iff (s : State) :
    s.inv = true ↔
      s.st ≠ .constructing ∧ s.rsp.all Response.lawful = true ∧
        s.port.all (fun f => decide (f.payload.length < 2 ^ s.lenw)) = true ∧ s.coreFits = true := by
  simp only [State.inv, Bool.and_eq_true, decide_eq_true_eq, and_assoc]

/-- The registers reset leaves free have the sizes and ranges of the configuration (10_state.md R34). -/
theorem freeKeyExpander_fits {lenw : Nat} {c : Configuration} (hl : c.legal lenw = true) (d : Nat) :
    (freeKeyExpander c d).fits c = true := by
  rw [legal_iff] at hl
  have hC : 0 < c.C := by
    rw [keyWords_eq]
    omega
  rw [KeyExpander.fits_iff]
  exact ⟨by simp [freeKeyExpander], by simp [freeKeyExpander], Nat.mod_lt _ (by simp), Nat.mod_lt _ hC,
    Nat.lt_succ_iff.1 (Nat.mod_lt _ (by omega)), Nat.mod_lt _ (by omega)⟩

theorem freeDatapath_fits {lenw : Nat} {c : Configuration} (hl : c.legal lenw = true) (d : Nat) :
    (freeDatapath c d).fits c = true := by
  rw [legal_iff] at hl
  rw [Datapath.fits_iff]
  have h : (freeDatapath c d).r = 1 + Config.freeCount (d + 4) % c.R := rfl
  have := Nat.mod_lt (Config.freeCount (d + 4)) (show c.R > 0 by omega)
  omega

end Sys2Proof.Machine
end

