-- ==== Sys2Proof/Tests/Slice0.lean ====
section
/-! SUPPORT. The model's own tests.  Expected values come from spec/: the words are written out from 30_encoding.md
R62 and R63, the data from 95_test_vectors.md (the vector's name stands in each test's comment). -/

namespace Sys2Proof.Tests

open Sys2Proof.Machine

/-! ### Helpers -/

/-- The bytes 00 01 02 .. (n-1). -/
def countingKey (n : Nat) : List Byte := (List.range n).map (BitVec.ofNat 8)

/-- A core of a configuration that holds the table `S`. -/
def keyed (c : Configuration) (S : List Word) : State :=
  { State.reset with build := .built c, st := .ready, kx := { State.reset.kx with S := S } }

/-- A core of a configuration that has no key. -/
def unkeyed (c : Configuration) : State := { State.reset with build := .built c }

/-- The smallest profile: one round, four key bytes. -/
def small : Configuration := { R := 1, KB := 4 }

/-- Table K5. -/
def tableK5 : List Word := [0xaf13b225, 0xffd80a5f, 0x83903aab, 0xfebf1d00]

/-- Table K1. -/
def tableK1 : List Word :=
  [0xd447e233, 0xd82eec20, 0x84fce219, 0xb93353de, 0x5ac2588f, 0x48e922f1, 0x879f5460, 0x1a693a4b, 0x5171b55f,
    0x9a206e4d, 0x9966c4a0, 0xb166b0d7, 0x89cc6827] ++
  [0xcbe1b9b7, 0x1bb7f44f, 0x638829b4, 0x4da0ab3a, 0x74e54561, 0x5eb4dee9, 0xbef10188, 0x728a511f, 0x37a8debc,
    0x5735676a, 0xf96b764a, 0x7aec5407, 0x15e8e206]

/-- Plaintext and ciphertext of V1. -/
def plainV1 : List Byte := [0x00, 0x11, 0x22, 0x33, 0x44, 0x55, 0x66, 0x77]
def cipherV1 : List Byte := [0x2D, 0xDC, 0x14, 0x9B, 0xCF, 0x08, 0x8B, 0x9E]

/-- The response of an outcome. -/
def rspOf : Host.Outcome State Fault Refusal → Option Response
  | .next t => t.rsp
  | .fault _ => none
  | .refused _ => none

/-- The table of an outcome. -/
def tableOf : Host.Outcome State Fault Refusal → List Word
  | .next t => t.kx.S
  | .fault _ => []
  | .refused _ => []

/-- The engine state and the build state of an outcome. -/
def engineOf : Host.Outcome State Fault Refusal → Option (EngineState × Build)
  | .next t => some (t.st, t.build)
  | .fault _ => none
  | .refused _ => none

/-- The reason of a refusal. -/
def refusalOf : Host.Outcome State Fault Refusal → Option Refusal
  | .next _ => none
  | .fault _ => none
  | .refused why => some why

/-! ### WellFormed refuses what cannot be presented (R61): a payload of 256 bytes does not fit `len` -/

theorem test_wellFormed_keyload : (Instr.keyload (List.replicate 256 0)).wellFormed 8 = false := by
  rw [Instr.wellFormed, List.length_replicate]; decide
theorem test_wellFormed_encrypt : (Instr.encrypt (List.replicate 256 0)).wellFormed 8 = false := by
  rw [Instr.wellFormed, List.length_replicate]; decide
theorem test_wellFormed_decrypt : (Instr.decrypt (List.replicate 256 0)).wellFormed 8 = false := by
  rw [Instr.wellFormed, List.length_replicate]; decide
theorem test_wellFormed_reserved : (Instr.reserved (List.replicate 256 0)).wellFormed 8 = false := by
  rw [Instr.wellFormed, List.length_replicate]; decide
theorem test_wellFormed_longest : (Instr.encrypt (List.replicate 255 0)).wellFormed 8 = true := by
  rw [Instr.wellFormed, List.length_replicate]; decide

/-! ### Words written out from R62 and R63: eight bits of `len`, then two of `op` -/

/-- CONFIG has no encoding (R67). -/
theorem test_encode_config : encode (.config 32 12 16) = none := by decide
/-- PR5 line 1: header 011. -/
theorem test_decode_keyload :
    decodeWire (lenw := 8) 0b0000010001#10 [1, 2, 3, 4] = .ok (.keyload [1, 2, 3, 4], []) := by decide
/-- F12: header 022; the byte after the frame is left. -/
theorem test_decode_encrypt :
    decodeWire (lenw := 8) 0b0000100010#10 (plainV1 ++ [0xAA]) = .ok (.encrypt plainV1, [0xAA]) := by decide
/-- F9: header 027. -/
theorem test_decode_decrypt :
    decodeWire (lenw := 8) 0b0000100111#10 (cipherV1 ++ [0]) = .ok (.decrypt (cipherV1 ++ [0]), []) := by decide
/-- F14: 000 + 4 * len. -/
theorem test_decode_reserved : decodeWire (lenw := 8) 0b0000001000#10 [7, 9] = .ok (.reserved [7, 9], []) := by
  decide
theorem test_decode_truncated :
    decodeWire (lenw := 8) 0b0000010001#10 [1, 2, 3] = .error .payloadTruncated := by decide
/-- R69: `(16 << 2) | 1 = 0x041`. -/
theorem test_encode_keyload :
    encodeWire 8 (.keyload (countingKey 16)) = some (0x041#10, countingKey 16) := by decide

/-! ### Arithmetic: A3, A6, A10, A12 -/

theorem test_sub32_borrow : sub32 0 1 = 0xffffffff := by decide
theorem test_rotl32_full_turn : rotl32 0x12345678 32 = 0x12345678 := by decide
theorem test_rotl32_largest : rotl32 0x80000001 31 = 0xc0000000 := by decide
theorem test_rotr32_largest : rotr32 0x80000001 31 = 0x00000003 := by decide

/-! ### CONFIG: CF3 and CF8 -/

theorem test_config_reference :
    engineOf (exec (.config 32 12 16) State.unbuilt) = some (.unkeyed, .built { R := 12, KB := 16 }) := by decide
theorem test_config_word_size_first :
    engineOf (exec (.config 64 12 5) State.unbuilt) = some (.unkeyed, .failed .unsupportedWordSize) := by decide

/-! ### KEYLOAD: K1 and K6 -/

theorem test_keyload_K1 : tableOf (exec (.keyload (countingKey 16)) State.reset) = tableK1 := by decide +kernel
/-- With `3 * max(T, C)` iterations the table would be another one. -/
theorem test_keyload_K6 :
    tableOf (exec (.keyload (countingKey 32)) (unkeyed { R := 1, KB := 32 })) =
      [0x13a7bac2, 0x7e1d3081, 0xbdf772d4, 0x3432fc7b] := by decide +kernel

/-! ### ENCRYPT: V1 and E5, whose first rotate amount is 0 -/

theorem test_encrypt_V1 :
    rspOf (exec (.encrypt plainV1) (keyed .reference tableK1)) = some { status := .ok, data := cipherV1 } := by
  decide +kernel
theorem test_encrypt_E5 :
    rspOf (exec (.encrypt [0xCD, 0x1D, 0xB8, 0x2B, 0xE0, 0x13, 0xD1, 0x27]) (keyed .reference tableK1)) =
      some { status := .ok, data := [0xE1, 0xF0, 0xA3, 0x58, 0xB1, 0xF9, 0x99, 0xC4] } := by decide +kernel

/-! ### DECRYPT: E8, and PR5 line 4 -/

theorem test_decrypt_E8 :
    rspOf (exec (.decrypt (List.replicate 8 0xFF)) (keyed .reference tableK1)) =
      some { status := .ok, data := [0x90, 0x11, 0x5A, 0x5E, 0xA9, 0x22, 0x70, 0xDA] } := by decide +kernel
theorem test_decrypt_PR5 :
    rspOf (exec (.decrypt [0xC9, 0x28, 0xC3, 0x17, 0xD0, 0x4C, 0x04, 0x35]) (keyed small tableK5)) =
      some { status := .ok, data := List.replicate 8 0xFF } := by decide +kernel

/-! ### Opcode 00, and a step on a fetched word -/

theorem test_reserved_refused : refusalOf (exec (.reserved []) State.reset) = some .reservedOpcode := by decide
/-- F1's header, 03d, on the core after reset. -/
theorem test_step_keyload_wrong_length :
    rspOf (step (State.reset.withFetchWord 16 0x03d)) =
      some { status := .error .unsupportedKeyLength, data := [] } := by decide +kernel

/-! ### Witnesses: for each statement with hypotheses, values that meet all of them -/

theorem witness_XorIsBitDifference : (0 : Nat) < 32 ∧ (31 : Nat) < 32 := by decide
theorem witness_RotateLeftFormula : 32 % 32 = 0 ∧ 0 < 63 % 32 ∧ 31 < 32 := by decide
theorem witness_RotateRightInvertsRotateLeft : 0 % 32 = 0 ∧ 0 < 1 % 32 := by decide
theorem witness_MemReadIsLittleEndian : 4 + 4 ≤ plainV1.length := by decide
theorem witness_MemWriteIsLittleEndian : 0 + 4 ≤ (List.replicate 4 (0 : Byte)).length := by decide
theorem witness_HeaderHoldsOpAndLen : 255 < 2 ^ 8 := by decide
theorem witness_OpcodeMapIsComplete :
    (List.replicate 15 (0 : Byte)).length < 2 ^ 4 ∧ 2 ^ 4 ≤ (List.replicate 16 (0 : Byte)).length := by decide
theorem witness_DecodeOfEncodeIsIdentity :
    (Instr.reserved []).wellFormed 8 = true ∧ ∀ w r kb, Instr.reserved [] ≠ .config w r kb :=
  ⟨by decide, fun _ _ _ h => nomatch h⟩
theorem witness_EncodeOfDecodeIsIdentity :
    decodeWire (lenw := 8) 0b0000000110#10 [5, 6] = .ok (.encrypt [5], [6]) := by decide
theorem witness_FrameLengthComesFromHeader :
    headerLen (lenw := 8) 0b0000000110#10 ≤ [(5 : Byte)].length ∧
    ([] : List Byte).length < headerLen (lenw := 8) 0b0000000110#10 := by decide

/-- A frame with a block command of 8 bytes. -/
def blockFrame : Frame := { op := 2#2, payload := plainV1 }

theorem witness_StepRunsThePresentedFrame :
    decode 8 blockFrame = .ok (.encrypt plainV1) ∧
    (∃ s : State, s.lenw = 8 ∧ s.host = [] ∧ s.port = some blockFrame) ∧
    (∃ s : State, s.lenw = 8 ∧ s.host = [.hold, .withdraw] ∧ s.port = some blockFrame) ∧
    (∃ s : State, s.lenw = 8 ∧ s.host = [.present blockFrame]) :=
  ⟨by decide, ⟨{ State.reset with port := some blockFrame }, rfl, rfl, rfl⟩,
    ⟨{ State.reset with port := some blockFrame, host := [.hold, .withdraw] }, rfl, rfl, rfl⟩,
    ⟨{ State.reset with host := [.present blockFrame] }, rfl, rfl⟩⟩
theorem witness_StepRunsTheFetchWord : State.reset.lenw = 8 ∧ decodeTableWord 16 0x002 = some (.encrypt []) := by
  decide
theorem witness_StepWithoutFrameIsIdle :
    (State.reset.host = [] ∧ State.reset.port = none) ∧
    (∃ s : State, s.host = [.withdraw]) ∧
    (∃ (s : State) (f : Frame), s.host = [.present f] ∧ 2 ^ s.lenw ≤ f.payload.length) :=
  ⟨by decide, ⟨{ State.reset with host := [.withdraw] }, rfl⟩,
    ⟨{ State.reset with lenw := 0, host := [.present { op := 1#2, payload := [0] }] }, _, rfl, by decide⟩⟩

/-- A core whose reset input is asserted and is released next. -/
def releasing : State := { State.reset with inReset := true, host := [.releaseReset] }

theorem witness_ReleasedResetGivesResetState :
    releasing.build = .built .reference ∧ releasing.inReset = true ∧ releasing.host = .releaseReset :: [] := by decide
theorem witness_ResetAbandonsTheCommand :
    ∃ s : State, s.build = .built .reference ∧ s.host = [.assertReset, .releaseReset] ∧ s.port = some blockFrame :=
  ⟨{ State.reset with port := some blockFrame, host := [.assertReset, .releaseReset] }, rfl, rfl, rfl⟩
theorem witness_AssertedResetAcceptsNothing : releasing.build = .built .reference ∧ releasing.inReset = true := by
  decide

theorem unbuilt_has_no_core : ∀ c, State.unbuilt.build ≠ .built c := fun _ h => nomatch h

theorem witness_ConfigBuildsTheCore :
    (∀ c, State.unbuilt.build ≠ .built c) ∧ (1 : Int) ≤ 1 ∧ (4 : Int) ≤ 252 ∧ (252 : Int) % 4 = 0 ∧
      (252 : Int) < 2 ^ State.unbuilt.lenw ∧ 8 < 2 ^ State.unbuilt.lenw :=
  ⟨unbuilt_has_no_core, by decide⟩
theorem witness_ConfigRejectsOtherWordSizes : (∀ c, State.unbuilt.build ≠ .built c) ∧ (33 : Int) ≠ 32 :=
  ⟨unbuilt_has_no_core, by decide⟩
theorem witness_ConfigRefusesOtherParameters :
    (∀ c, State.unbuilt.build ≠ .built c) ∧
    ((0 : Int) < 1 ∧ (3 : Int) < 4 ∧ (5 : Int) % 4 ≠ 0 ∧ 2 ^ State.unbuilt.lenw ≤ (256 : Int)) ∧
    (∃ s : State, (∀ c, s.build ≠ .built c) ∧ 2 ^ s.lenw ≤ 8) ∧ State.reset.build = .built .reference :=
  ⟨unbuilt_has_no_core, by decide, ⟨{ State.unbuilt with lenw := 3 }, (fun _ h => nomatch h), by decide⟩, rfl⟩
theorem witness_ConfigurationIsImmutable :
    State.reset.build = .built .reference ∧ (∃ t, step State.reset = .next t) ∧
    (∃ t, exec (.keyload []) State.reset = .next t) :=
  ⟨rfl, ⟨_, rfl⟩, ⟨_, rfl⟩⟩
theorem witness_NoCoreRunsNoCommand : ∀ c, State.unbuilt.build ≠ .built c := unbuilt_has_no_core

theorem witness_PackedKeyIsLittleEndian :
    small.legal 8 = true ∧ (countingKey 4).length = small.KB ∧ 0 < small.C := by decide
theorem witness_InitialTableIsProgression :
    25 < 2 * (Configuration.reference.R + 1) ∧ 24 + 1 < 2 * (Configuration.reference.R + 1) ∧
    (initTable .reference)[24]? = some 0x8d14babb#32 := by decide
theorem witness_MixingIterationRule :
    (mixStart small (countingKey 4)).i < (mixStart small (countingKey 4)).S.length ∧
    (mixStart small (countingKey 4)).j < (mixStart small (countingKey 4)).L.length := by decide
theorem witness_EveryIndexIsInRange :
    Configuration.reference.legal 8 = true ∧ (countingKey 16).length = Configuration.reference.KB ∧
    15 < Configuration.reference.KB ∧ 1 ≤ 12 ∧ 12 ≤ Configuration.reference.R := by decide
theorem witness_KeyloadExpandsTheKey :
    State.reset.build = .built .reference ∧ Configuration.reference.legal State.reset.lenw = true ∧
    State.reset.inReset = false ∧ State.reset.st ≠ .constructing ∧
    (countingKey 16).length = Configuration.reference.KB := by decide
theorem witness_KeyloadDependsOnKeyOnly :
    State.reset.build = .built .reference ∧ (keyed .reference tableK1).build = .built .reference ∧
    State.reset.inReset = false ∧ (keyed .reference tableK1).inReset = false ∧ State.reset.st ≠ .constructing ∧
    (keyed .reference tableK1).st ≠ .constructing ∧ (countingKey 16).length = Configuration.reference.KB := by decide
theorem witness_WrongKeyLengthChangesNothing :
    State.reset.build = .built .reference ∧ State.reset.inReset = false ∧ State.reset.st ≠ .constructing ∧
    (countingKey 17).length ≠ Configuration.reference.KB := by decide

/-- What every statement about an accepted block command assumes. -/
theorem witness_block_accepted :
    (keyed .reference tableK1).build = .built .reference ∧ (keyed .reference tableK1).inReset = false ∧
    (keyed .reference tableK1).st = .ready := by decide
theorem witness_EncryptRunsTheRounds : plainV1.length = 8 ∧ 1 ≤ 1 ∧ 12 ≤ Configuration.reference.R := by decide
theorem witness_DecryptRunsTheInverseRounds : cipherV1.length = 8 ∧ 1 ≤ 1 ∧ 12 ≤ Configuration.reference.R := by decide
theorem witness_RoundTrip : plainV1.length = 8 := by decide
theorem witness_WrongBlockSizeLeavesEngineUsable : (countingKey 9).length ≠ 8 ∧ plainV1.length = 8 := by decide
theorem witness_BlockCommandWaitsUntilKeyed : State.reset.build = .built .reference ∧ State.reset.st ≠ .ready := by
  decide

theorem encrypt_is_block : ∃ din, Instr.encrypt plainV1 = .encrypt din ∨ Instr.encrypt plainV1 = .decrypt din :=
  ⟨plainV1, .inl rfl⟩
theorem decrypt_is_block : ∃ din, Instr.decrypt plainV1 = .encrypt din ∨ Instr.decrypt plainV1 = .decrypt din :=
  ⟨plainV1, .inr rfl⟩

theorem witness_BlockCommandsHaveNoSideEffects :
    (∃ din, Instr.encrypt plainV1 = .encrypt din ∨ Instr.encrypt plainV1 = .decrypt din) ∧
    (∃ t, exec (.encrypt plainV1) (keyed .reference tableK1) = .next t) ∧
    (∃ (s s' : State) (c c' : Configuration), c ≠ c' ∧ s.build = .built c ∧ s'.build = .built c' ∧ c.R = c'.R ∧
      s.inReset = false ∧ s'.inReset = false ∧ s.st = .ready ∧ s'.st = .ready ∧ s.kx.S = s'.kx.S) :=
  ⟨encrypt_is_block, ⟨_, rfl⟩,
    ⟨keyed small tableK5, keyed { R := 1, KB := 32 } tableK5, small, { R := 1, KB := 32 }, by decide, rfl, rfl, rfl, rfl,
      rfl, rfl, rfl, rfl⟩⟩
theorem witness_RepeatedBlockCommandRepeatsItsOutput :
    (∃ din, Instr.encrypt plainV1 = .encrypt din ∨ Instr.encrypt plainV1 = .decrypt din) ∧
    (∃ din, Instr.decrypt plainV1 = .encrypt din ∨ Instr.decrypt plainV1 = .decrypt din) ∧
    (∃ t u, exec (.encrypt plainV1) (keyed .reference tableK1) = .next t ∧ exec (.decrypt plainV1) t = .next u) :=
  ⟨encrypt_is_block, decrypt_is_block, ⟨_, _, rfl, rfl⟩⟩
theorem witness_BlockCommandUsesTheLatestKey :
    (∃ din, Instr.encrypt plainV1 = .encrypt din ∨ Instr.encrypt plainV1 = .decrypt din) ∧
    State.reset.build = .built .reference ∧ (keyed .reference tableK1).build = .built .reference ∧
    State.reset.inReset = false ∧ (keyed .reference tableK1).inReset = false ∧
    State.reset.st ≠ .constructing ∧ (keyed .reference tableK1).st ≠ .constructing ∧
    (countingKey 16).length = Configuration.reference.KB ∧ (countingKey 0).length ≠ Configuration.reference.KB :=
  ⟨encrypt_is_block, by decide⟩

theorem witness_ResponseHeaderCodes : (List.replicate 15 (0 : Byte)).length < 16 := by decide
theorem witness_OutputsAreAllOrNothing :
    (∃ t, exec (.keyload (countingKey 16)) State.reset = .next t) ∧
    (∃ din, Instr.decrypt plainV1 = .encrypt din ∨ Instr.decrypt plainV1 = .decrypt din) ∧
    (∃ t, exec (.decrypt plainV1) (keyed .reference tableK1) = .next t) :=
  ⟨⟨_, rfl⟩, decrypt_is_block, ⟨_, rfl⟩⟩
theorem witness_EveryAcceptedCommandIsAnswered :
    State.reset.build = .built .reference ∧ State.reset.acceptsKeyload = true ∧
    (keyed .reference tableK1).build = .built .reference ∧ (keyed .reference tableK1).acceptsBlock = true := by decide
theorem witness_ReservedOpcodeIsRefused :
    ∃ s : State, s.host = [.present { op := 0#2, payload := [] }] ∧ ([] : List Byte).length < 2 ^ s.lenw :=
  ⟨{ State.reset with host := [.present { op := 0#2, payload := [] }] }, rfl, by decide⟩

/-- A core to which the host presents a key in the coming step. -/
def keying : State := { State.reset with host := [.present { op := 1#2, payload := countingKey 16 }] }

theorem witness_EngineStateTransitionsAreComplete :
    (∃ t, step keying = .next t) ∧ (∃ t, step releasing = .next t) ∧
    (∃ t, step { State.unbuilt with host := [.build 32 12 16] } = .next t) :=
  ⟨⟨_, rfl⟩, ⟨_, rfl⟩, ⟨_, rfl⟩⟩
theorem witness_TableIsWrittenOnlyByKeyload : ∃ t, step keying = .next t := ⟨_, rfl⟩
theorem witness_StepKeepsTheInvariant : keying.inv = true ∧ ∃ t, step keying = .next t := ⟨by decide, ⟨_, rfl⟩⟩
theorem witness_DutifulHostIsNeverRefused :
    keying.inv = true ∧ keying.build = .built .reference ∧ keying.hostDuty = true := by decide
theorem witness_RefusalsAreComplete :
    (step { State.reset with host := [.present { op := 0#2, payload := [] }] } = .refused .reservedOpcode) ∧
    (step { State.reset with lenw := 0, host := [.present { op := 1#2, payload := [0] }] } =
      .refused (.undecodable .lengthNotExpressible)) ∧
    (step { State.reset with host := [.build 32 12 16] } = .refused .coreAlreadyBuilt) :=
  ⟨rfl, rfl, rfl⟩

/-- An unkeyed core with a block command held on its port. -/
def stuck : State := { State.reset with port := some blockFrame }

theorem witness_BlockCommandBeforeKeyIsStuck :
    (∃ din, Instr.encrypt plainV1 = .encrypt din ∨ Instr.encrypt plainV1 = .decrypt din) ∧
    stuck.build = .built .reference ∧ stuck.st = .unkeyed ∧ stuck.host = [] ∧ stuck.port = some blockFrame ∧
    decode stuck.lenw blockFrame = .ok (.encrypt plainV1) :=
  ⟨encrypt_is_block, by decide⟩
theorem witness_WithdrawnFrameLeavesNoTrace :
    (∃ din, Instr.encrypt plainV1 = .encrypt din ∨ Instr.encrypt plainV1 = .decrypt din) ∧
    decode 8 blockFrame = .ok (.encrypt plainV1) ∧
    (∃ s : State, s.lenw = 8 ∧ s.build = .built .reference ∧ s.st ≠ .ready ∧
      s.host = [.present blockFrame, .withdraw]) ∧
    (∃ (s : State) (g : Frame), s.lenw = 8 ∧ s.build = .built .reference ∧ s.st ≠ .ready ∧
      s.host = [.present blockFrame, .present g]) :=
  ⟨encrypt_is_block, by decide,
    ⟨{ State.reset with host := [.present blockFrame, .withdraw] }, rfl, rfl, by decide, rfl⟩,
    ⟨{ State.reset with host := [.present blockFrame, .present { op := 1#2, payload := countingKey 16 }] }, _, rfl,
      rfl, by decide, rfl⟩⟩
theorem witness_BlockCommandsCommute :
    (∃ din, Instr.encrypt plainV1 = .encrypt din ∨ Instr.encrypt plainV1 = .decrypt din) ∧
    (∃ din, Instr.decrypt plainV1 = .encrypt din ∨ Instr.decrypt plainV1 = .decrypt din) :=
  ⟨encrypt_is_block, decrypt_is_block⟩
theorem witness_BackToBackFramesEndAlike :
    (keyed small tableK5).host = [] ∧
    ∃ responses t, runFrames [blockFrame, { op := 3#2, payload := [] }] (keyed small tableK5) = some (responses, t) :=
  ⟨rfl, ⟨_, _, rfl⟩⟩

end Sys2Proof.Tests
end

section
/-! PROOFS. The scope's arithmetic (00_scope.md R10 to R13): word sums, exclusive-or and the two rotates as formulas
on natural numbers and as moves of bits, and CONFIG's successful build (40_configuration.md R80 to R82). -/

namespace Sys2Proof.Machine

/-! ### Sums, differences and exclusive-or (R10, R11) -/

theorem add32_toNat (x y : Word) : (add32 x y).toNat = (x.toNat + y.toNat) % 2 ^ 32 :=
  BitVec.toNat_add x y

theorem sub32_toNat (x y : Word) : ((sub32 x y).toNat : Int) = ((x.toNat : Int) - (y.toNat : Int)) % 2 ^ 32 := by
  have hx := x.isLt
  have hy := y.isLt
  rw [sub32, BitVec.toNat_sub]
  omega

theorem xor32_getLsbD (x y : Word) (n : Nat) : (xor32 x y).getLsbD n = (x.getLsbD n ^^ y.getLsbD n) :=
  BitVec.getLsbD_xor

/-- Settles O1: the inner sum of three words may be reduced or not before the outer one is. -/
theorem wordSumsWrap : Obligations.WordSumsWrap := by
  intro x y z
  refine ⟨add32_toNat x y, ?_, sub32_toNat x y⟩
  rw [add32_toNat, add32_toNat, Nat.mod_add_mod]

/-- Settles O2: an exclusive-or of Booleans is true exactly when they differ. -/
theorem xorIsBitDifference : Obligations.XorIsBitDifference := by
  intro x y n _
  rw [xor32_getLsbD, bne_iff_ne]

/-! ### The rotates (R12, R13) -/

/-- The two parts of a rotated number share no bit: the part moved up is a multiple of `2 ^ m`, and the part that
comes round is below it. -/
theorem or_eq_add_of_rotate {x m k : Nat} (hx : x < 2 ^ (m + k)) :
    x * 2 ^ m % 2 ^ (m + k) ||| x / 2 ^ k = x * 2 ^ m % 2 ^ (m + k) + x / 2 ^ k := by
  have hlow : x / 2 ^ k < 2 ^ m := Nat.div_lt_of_lt_mul (by rwa [← pow_add, Nat.add_comm])
  have hhigh : x * 2 ^ m % 2 ^ (m + k) = 2 ^ m * (x % 2 ^ k) := by
    rw [pow_add, Nat.mul_comm x, Nat.mul_mod_mul_left]
  rw [hhigh, Nat.two_pow_add_eq_or_of_lt hlow]

theorem rotl32_of_mod_eq_zero (x : Word) {n : Nat} (h : n % 32 = 0) : rotl32 x n = x := by
  simp [rotl32, h, BitVec.rotateLeft_def, BitVec.ushiftRight_eq_zero (Nat.le_refl 32)]

theorem rotl32_toNat (x : Word) (n : Nat) :
    (rotl32 x n).toNat = x.toNat * 2 ^ (n % 32) % 2 ^ 32 + x.toNat / 2 ^ (32 - n % 32) := by
  have hsum : n % 32 + (32 - n % 32) = 32 := by omega
  have hor := or_eq_add_of_rotate (x := x.toNat) (m := n % 32) (k := 32 - n % 32) (by rw [hsum]; exact x.isLt)
  rw [hsum] at hor
  rw [rotl32, BitVec.toNat_rotateLeft, Nat.mod_mod, Nat.shiftLeft_eq, Nat.shiftRight_eq_div_pow, hor]

/-- Rotating left moves bit `p` up by the reduced amount, round the word. -/
theorem rotl32_getLsbD (x : Word) (n : Nat) {p : Nat} (hp : p < 32) :
    (rotl32 x n).getLsbD ((p + n % 32) % 32) = x.getLsbD p := by
  rw [rotl32, BitVec.getLsbD_rotateLeft, Nat.mod_mod]
  by_cases hwrap : p + n % 32 < 32
  · have hpos : (p + n % 32) % 32 = p + n % 32 := Nat.mod_eq_of_lt hwrap
    simp [hpos, hwrap]
  · have hpos : (p + n % 32) % 32 = p + n % 32 - 32 := by omega
    have hlow : p + n % 32 - 32 < n % 32 := by omega
    have hsrc : 32 - n % 32 + (p + n % 32 - 32) = p := by omega
    simp [hpos, hlow, hsrc]

theorem rotAmount_eq_extract (v : Word) : rotAmount v = (v.extractLsb' 0 5).toNat := by
  simp [rotAmount]

/-- Rotating right by `m` is rotating left by what `m` lacks of a whole turn. -/
theorem rotr32_eq_rotl32 (x : Word) (n : Nat) : rotr32 x n = rotl32 x (32 - n % 32) := by
  by_cases hm : n % 32 = 0
  · rw [hm, rotl32_of_mod_eq_zero x rfl]
    simp [rotr32, hm, BitVec.rotateRight_def]
  · have hl : (32 - n % 32) % 32 = 32 - n % 32 := Nat.mod_eq_of_lt (by omega)
    have hback : 32 - (32 - n % 32) = n % 32 := by omega
    rw [rotr32, rotl32, BitVec.rotateRight_def, BitVec.rotateLeft_def, Nat.mod_mod, hl, hl, hback, BitVec.or_comm]

theorem rotr32_of_mod_eq_zero (x : Word) {n : Nat} (h : n % 32 = 0) : rotr32 x n = x := by
  rw [rotr32_eq_rotl32, h, rotl32_of_mod_eq_zero x rfl]

theorem rotr32_toNat (x : Word) {n : Nat} (h : 0 < n % 32) :
    (rotr32 x n).toNat = x.toNat / 2 ^ (n % 32) + x.toNat * 2 ^ (32 - n % 32) % 2 ^ 32 := by
  have hl : (32 - n % 32) % 32 = 32 - n % 32 := Nat.mod_eq_of_lt (by omega)
  have hback : 32 - (32 - n % 32) = n % 32 := by omega
  rw [rotr32_eq_rotl32, rotl32_toNat, hl, hback, Nat.add_comm]

/-- Rotating right takes bit `p` from above by the reduced amount, round the word. -/
theorem rotr32_getLsbD (x : Word) (n : Nat) {p : Nat} (hp : p < 32) :
    (rotr32 x n).getLsbD p = x.getLsbD ((p + n % 32) % 32) := by
  have hsrc := rotl32_getLsbD x (32 - n % 32) (p := (p + n % 32) % 32) (Nat.mod_lt _ (by decide))
  have hpos : ((p + n % 32) % 32 + (32 - n % 32) % 32) % 32 = p := by omega
  rw [rotr32_eq_rotl32, ← hsrc, hpos]

@[simp] theorem rotr32_rotl32 (x : Word) (n : Nat) : rotr32 (rotl32 x n) n = x := by
  apply BitVec.eq_of_getLsbD_eq
  intro p hp
  rw [rotr32_getLsbD _ _ hp, rotl32_getLsbD _ _ hp]

@[simp] theorem rotl32_rotr32 (x : Word) (n : Nat) : rotl32 (rotr32 x n) n = x := by
  apply BitVec.eq_of_getLsbD_eq
  intro p hp
  obtain ⟨q, hq, rfl⟩ : ∃ q, q < 32 ∧ p = (q + n % 32) % 32 := ⟨(p + (32 - n % 32)) % 32, by omega, by omega⟩
  rw [rotl32_getLsbD _ _ hq, rotr32_getLsbD _ _ hq]

/-- Settles O3: R12's sum also holds for the amount 0, where the part that comes round is 0. -/
theorem rotateLeftFormula : Obligations.RotateLeftFormula := by
  intro x n
  exact ⟨rotl32_of_mod_eq_zero x, fun _ => rotl32_toNat x n, fun _ => rotl32_getLsbD x n, rotAmount_eq_extract⟩

/-- Settles O4: the formula is that of rotating left by the rest of a turn, and the inverse laws follow bit by bit. -/
theorem rotateRightInvertsRotateLeft : Obligations.RotateRightInvertsRotateLeft := by
  intro x n
  exact ⟨rotr32_of_mod_eq_zero x, rotr32_toNat x, rotr32_rotl32 x n, rotl32_rotr32 x n, rotr32_eq_rotl32 x n⟩

/-! ### CONFIG (R8, R80 to R82) -/

theorem exec_config (w r kb : Int) (s : State) : exec (.config w r kb) s = execConfig w r kb s := rfl

/-- Where no core exists `CONFIG` is evaluated. -/
theorem execConfig_noCore {s : State} (hb : ∀ c, s.build ≠ .built c) (w r kb : Int) :
    execConfig w r kb s = buildCore w r kb s := by
  unfold execConfig
  split
  · next c h => exact absurd h (hb c)
  · rfl
  · rfl

/-- With the supported word size a legal parameter set is built, and the core stands in its reset state. -/
theorem buildCore_legal {s : State} {r kb : Int}
    (hl : Configuration.legal s.lenw { R := r.toNat, KB := kb.toNat } = true) :
    buildCore 32 r kb s =
      .next (State.afterReset { R := r.toNat, KB := kb.toNat }
        { s with build := .built { R := r.toNat, KB := kb.toNat } }) := by
  rw [buildCore, if_neg (not_not.2 rfl), if_pos hl]

/-- The bounds R61 and R82 set on the integers of `CONFIG` make a legal configuration. -/
theorem legal_of_integers {lenw : Nat} {r kb : Int} (hr : 1 ≤ r) (hkb : 4 ≤ kb) (hdiv : kb % 4 = 0)
    (hlen : kb < 2 ^ lenw) (hblk : 8 < 2 ^ lenw) :
    Configuration.legal lenw { R := r.toNat, KB := kb.toNat } = true := by
  have hfits : kb.toNat < 2 ^ lenw := by
    rw [← Int.ofNat_lt, Int.toNat_of_nonneg (by omega)]
    exact_mod_cast hlen
  rw [legal_iff]
  exact ⟨by dsimp only; omega, by dsimp only; omega, by dsimp only; omega, hfits, hblk⟩

/-- Settles O21: the legal parameter set is built as it is given, and the derived parameters are R8's. -/
theorem configBuildsTheCore : Obligations.ConfigBuildsTheCore := by
  intro s r kb hb hr hkb hdiv hlen hblk
  have hbuild := buildCore_legal (legal_of_integers hr hkb hdiv hlen hblk)
  refine ⟨_, _, (exec_config ..).trans ((execConfig_noCore hb ..).trans hbuild), rfl, rfl, ?_, ?_,
    bytesPerWord_eq _, ?_, ?_, freeWords_length _ _, freeWords_length _ _, rfl⟩
  · exact Int.toNat_of_nonneg (by omega)
  · exact Int.toNat_of_nonneg (by omega)
  · rw [keyWords_eq]
    dsimp only
    omega
  · rw [tableSize_eq]
    dsimp only
    omega

end Sys2Proof.Machine
end

section
/-! PROOFS. The state of the core (10_state.md): what a core serving its port and a step can do, said once as
inversions, and from them the transitions of the engine state (R21), the writers of the table (R22), the reset state
(R34, R151) and the invariant (R21 to R27). -/

namespace Sys2Proof.Machine

/-! ### What a step can do -/

/-- The outcomes of a core that serves its port and answers a next state: nothing happens, an error is raised
(60_exceptions.md R139), a key is loaded (41_key_expansion.md R90), or a block is transformed (R110, R111). -/
inductive Served (s : State) : State → Prop where
  | unchanged : Served s s
  | failed (e : ErrorKind) (he : e ≠ .unsupportedWordSize) : Served s (s.answered { status := .error e, data := [] })
  | keyed (c : Configuration) (f : Frame) (key : List Byte) (hb : s.build = .built c) (hp : s.port = some f)
      (hd : decode s.lenw f = .ok (.keyload key)) (ha : s.acceptsKeyload = true) (hl : key.length = c.KB) :
      Served s ((construct c key s).answered { status := .ok, data := [] })
  | transformed (c : Configuration) (d : Datapath) (AB : Word × Word) (hb : s.build = .built c)
      (hr : d.r = c.R ∨ d.r = 1) : Served s ((s.setDatapath d).answered { status := .ok, data := storeBlock AB })

/-- A block operation whose round counter ends at `R` or at 1 waits, raises the block-size error or transforms. -/
theorem served_of_blockOp {f : Configuration → List Word → Word × Word → Word × Word} {lastRound : Configuration → Nat}
    {din : List Byte} {s t : State} (hr : ∀ c, lastRound c = c.R ∨ lastRound c = 1)
    (h : blockOp f lastRound din s = .next t) : Served s t := by
  obtain ⟨c, hb, ⟨-, rfl⟩ | ⟨-, -, rfl⟩ | ⟨-, -, rfl⟩⟩ := blockOp_cases h
  · exact .unchanged
  · exact .failed _ (by decide)
  · exact .transformed c _ _ hb (hr c)

/-- A decoded frame that is run on the port it came from is served. -/
theorem served_of_exec {s t : State} {f : Frame} {i : Instr} (hp : s.port = some f) (hd : decode s.lenw f = .ok i)
    (h : exec i s = .next t) : Served s t := by
  cases i with
  | config w r kb => exact absurd (decode_ok hd).1.symm (opcodeMap_ne_config f w r kb)
  | keyload key =>
    obtain ⟨c, hb, ⟨-, rfl⟩ | ⟨-, -, rfl⟩ | ⟨ha, hl, rfl⟩⟩ := execKeyload_cases h
    · exact .unchanged
    · exact .failed _ (by decide)
    · exact .keyed c f key hb hp hd ha hl
  | encrypt din => exact served_of_blockOp (fun _ => .inl rfl) h
  | decrypt din => exact served_of_blockOp (fun _ => .inr rfl) h
  | reserved payload => exact nomatch h

theorem served_of_serve {s t : State} (h : serve s = .next t) : Served s t := by
  obtain ⟨-, rfl⟩ | ⟨f, i, hp, hd, he⟩ := serve_next h
  · exact .unchanged
  · exact served_of_exec hp hd he

/-- What is on the port of a core that serves it and answers a next state is a frame (30_encoding.md R61). -/
theorem port_fits_of_serve {s t : State} (h : serve s = .next t) :
    s.port.all (fun f => decide (f.payload.length < 2 ^ s.lenw)) = true := by
  obtain ⟨hp, -⟩ | ⟨f, i, hp, hd, -⟩ := serve_next h
  · simp [hp]
  · simpa [hp] using (decode_ok hd).2

/-- A step serves what the host offers, moves the reset input, or builds a core. -/
theorem step_cases {s t : State} (h : step s = .next t) :
    serve (s.dropAction.setPort s.offered) = .next t ∨
      t = s.dropAction.assertReset ∨
      (s.action = .releaseReset ∧ t = s.dropAction.releaseReset) ∨
      ∃ w r kb, s.action = .build w r kb ∧ execConfig w r kb s.dropAction = .next t := by
  obtain ⟨ha, h⟩ | ⟨f, ha, h⟩ | ⟨ha, h⟩ | ⟨-, h⟩ | h | h := step_next h
  · exact .inl (by rw [State.offered, ha]; exact h)
  · exact .inl (by rw [State.offered, ha]; exact h)
  · exact .inl (by rw [State.offered, ha]; exact h)
  · exact .inr (.inl h)
  · exact .inr (.inr (.inl h))
  · exact .inr (.inr (.inr h))

/-- Releasing reset moves the input only, or gives the reset state of a core that was held in reset. -/
theorem State.releaseReset_cases (s : State) :
    s.releaseReset = { s with inReset := false } ∨
      s.inReset = true ∧ ∃ c, s.build = .built c ∧ s.releaseReset = State.afterReset c { s with inReset := false } := by
  cases hr : s.inReset with
  | false => exact .inl (by rw [State.releaseReset_of_not_inReset s hr, ← hr])
  | true =>
    cases hb : s.build with
    | built c => exact .inr ⟨rfl, c, rfl, by rw [State.releaseReset_built s hr hb, hb]⟩
    | notBuilt => exact .inl (by simp [State.releaseReset, hr, hb])
    | failed e => exact .inl (by simp [State.releaseReset, hr, hb])

/-! ### Who writes the engine state and the table (R21, R22) -/

/-- Settles O47: of what a step can do, only a key that is loaded, a release of reset and a build write `st`. -/
theorem engineStateTransitionsAreComplete : Obligations.EngineStateTransitionsAreComplete := by
  intro s t h
  obtain h | rfl | ⟨ha, rfl⟩ | ⟨w, r, kb, ha, h⟩ := step_cases h
  · cases served_of_serve h with
    | unchanged => exact .inl rfl
    | failed e he => exact .inl rfl
    | keyed c f key hb hp hd hacc hl =>
      obtain ⟨hreset, hst⟩ := (acceptsKeyload_iff _).1 hacc
      exact .inr (.inr (.inr ⟨rfl, hreset, hst, c, f, key, hb, hp, hd, hl⟩))
    | transformed c d AB hb hr => exact .inl rfl
  · exact .inl rfl
  · obtain ht | ⟨hreset, c, -, ht⟩ := s.dropAction.releaseReset_cases
    · exact .inl (by rw [ht]; rfl)
    · exact .inr (.inl ⟨by rw [ht]; rfl, ha, hreset⟩)
  · obtain ⟨-, ⟨-, rfl⟩ | ⟨-, -, rfl⟩⟩ := execConfig_cases h
    · exact .inl rfl
    · exact .inr (.inr (.inl ⟨rfl, w, r, kb, ha⟩))

/-- Settles O48: an error and a block operation leave the key expander, and a key that is loaded answers OK. -/
theorem tableIsWrittenOnlyByKeyload : Obligations.TableIsWrittenOnlyByKeyload := by
  intro s t h
  obtain h | rfl | ⟨ha, rfl⟩ | ⟨w, r, kb, ha, -⟩ := step_cases h
  · cases served_of_serve h with
    | unchanged => exact .inl rfl
    | failed e he => exact .inl rfl
    | keyed c f key hb hp hd hacc hl => exact .inr (.inr (.inr ⟨rfl, rfl, c, f, key, hb, hp, hd, hl⟩))
    | transformed c d AB hb hr => exact .inl rfl
  · exact .inl rfl
  · obtain ht | ⟨hreset, -⟩ := s.dropAction.releaseReset_cases
    · exact .inl (by rw [ht]; rfl)
    · exact .inr (.inl ⟨ha, hreset⟩)
  · exact .inr (.inr (.inl ⟨w, r, kb, ha⟩))

/-! ### Mixing keeps the cursors in their ranges (R25) -/

theorem mixSteps_i_lt {c : Configuration} {x : KeyExpander} (hx : x.i < c.T) (n : Nat) :
    (mixSteps c n x).i < c.T := by
  cases n with
  | zero => exact hx
  | succ n =>
    rw [mixSteps_succ, mixStep_i]
    exact Nat.mod_lt _ (by omega)

theorem mixSteps_j_lt {c : Configuration} {x : KeyExpander} (hx : x.j < c.C) (n : Nat) :
    (mixSteps c n x).j < c.C := by
  cases n with
  | zero => exact hx
  | succ n =>
    rw [mixSteps_succ, mixStep_j]
    exact Nat.mod_lt _ (by omega)

/-- The key expander of a legal core fits it once a key is expanded. -/
theorem expandKey_fits {lenw : Nat} {c : Configuration} (hc : c.legal lenw = true) (key : List Byte) :
    (expandKey c key).fits c = true := by
  obtain ⟨-, hKB, -⟩ := (legal_iff lenw c).1 hc
  have hi : (mixStart c key).i < c.T := Nat.succ_pos _
  have hj : (mixStart c key).j < c.C := by
    rw [keyWords_eq]
    exact Nat.div_pos hKB (by decide)
  have hidx : (mixStart c key).idx < c.KB := by
    dsimp only [mixStart]
    omega
  rw [KeyExpander.fits_iff, expandKey]
  refine ⟨?_, ?_, mixSteps_i_lt hi _, mixSteps_j_lt hj _, ?_, ?_⟩
  · rw [mixSteps_S_length]
    exact progression_length _ _
  · rw [mixSteps_L_length]
    exact packKey_length c key
  · rw [mixSteps_k]
    exact (Nat.zero_add _).le
  · rwa [mixSteps_idx]

/-! ### Each operation keeps the invariant -/

/-- A core that exists and meets the invariant has legal parameters. -/
theorem State.inv_legal {s : State} {c : Configuration} (hi : s.inv = true) (hb : s.build = .built c) :
    c.legal s.lenw = true := by
  obtain ⟨-, -, -, hcore⟩ := s.inv_iff.1 hi
  exact ((State.coreFits_built hb).1 hcore).1

/-- Where no core exists the invariant holds the engine state at `UNKEYED`. -/
theorem State.inv_noCore {s : State} (hi : s.inv = true) (hb : ∀ c, s.build ≠ .built c) : s.st = .unkeyed := by
  obtain ⟨-, -, -, hcore⟩ := s.inv_iff.1 hi
  unfold State.coreFits at hcore
  split at hcore
  · next c h => exact absurd h (hb c)
  · exact of_decide_eq_true hcore
  · exact of_decide_eq_true hcore

theorem State.inv_answered {s : State} {ρ : Response} (hi : s.inv = true) (hρ : ρ.lawful = true) :
    (s.answered ρ).inv = true := by
  obtain ⟨hst, -, -, hcore⟩ := s.inv_iff.1 hi
  exact (State.inv_iff _).2 ⟨hst, hρ, rfl, hcore⟩

theorem State.inv_setDatapath {s : State} {c : Configuration} {d : Datapath} (hi : s.inv = true)
    (hb : s.build = .built c) (hd : d.fits c = true) : (s.setDatapath d).inv = true := by
  obtain ⟨hst, hrsp, hport, hcore⟩ := s.inv_iff.1 hi
  obtain ⟨hlegal, hkx, -⟩ := (State.coreFits_built hb).1 hcore
  exact (State.inv_iff _).2 ⟨hst, hrsp, hport, (State.coreFits_built (s := s.setDatapath d) hb).2 ⟨hlegal, hkx, hd⟩⟩

theorem State.inv_construct {s : State} {c : Configuration} (hi : s.inv = true) (hb : s.build = .built c)
    (key : List Byte) : (construct c key s).inv = true := by
  obtain ⟨-, hrsp, hport, hcore⟩ := s.inv_iff.1 hi
  obtain ⟨hlegal, -, hdp⟩ := (State.coreFits_built hb).1 hcore
  exact (State.inv_iff _).2 ⟨by simp, hrsp, hport,
    (State.coreFits_built (s := construct c key s) hb).2 ⟨hlegal, expandKey_fits hlegal key, hdp⟩⟩

/-- The reset state of any core with legal parameters meets the invariant, whatever was before. -/
theorem State.inv_afterReset {s : State} {c : Configuration} (hb : s.build = .built c)
    (hc : c.legal s.lenw = true) : (s.afterReset c).inv = true :=
  (State.inv_iff _).2 ⟨by simp, rfl, rfl,
    (State.coreFits_built (s := s.afterReset c) hb).2 ⟨hc, freeKeyExpander_fits hc _, freeDatapath_fits hc _⟩⟩

theorem State.inv_assertReset {s : State} (hi : s.inv = true) : s.assertReset.inv = true := by
  obtain ⟨hst, hrsp, -, hcore⟩ := s.inv_iff.1 hi
  exact (State.inv_iff _).2 ⟨hst, hrsp, rfl, hcore⟩

theorem State.inv_releaseReset {s : State} (hi : s.inv = true) : s.releaseReset.inv = true := by
  obtain ht | ⟨-, c, hb, ht⟩ := s.releaseReset_cases
  · rw [ht]
    exact hi
  · rw [ht]
    exact State.inv_afterReset hb (State.inv_legal hi hb)

theorem inv_of_execConfig {s t : State} {w r kb : Int} (hi : s.inv = true) (h : execConfig w r kb s = .next t) :
    t.inv = true := by
  obtain ⟨hb, ⟨-, rfl⟩ | ⟨-, hc, rfl⟩⟩ := execConfig_cases h
  · obtain ⟨hst, hrsp, hport, -⟩ := s.inv_iff.1 hi
    exact (State.inv_iff _).2 ⟨hst, hrsp, hport, decide_eq_true (State.inv_noCore (s := s) hi hb)⟩
  · exact State.inv_afterReset rfl hc

/-- The host may put any frame on the port, or none. -/
theorem State.inv_setPort {s : State} {p : Option Frame} (hi : s.inv = true)
    (hp : p.all (fun f => decide (f.payload.length < 2 ^ s.lenw)) = true) : (s.setPort p).inv = true := by
  obtain ⟨hst, hrsp, -, hcore⟩ := s.inv_iff.1 hi
  exact (State.inv_iff _).2 ⟨hst, hrsp, hp, hcore⟩

/-- An error response has no data, and its status is not that of `CONFIG` (60_exceptions.md R131, R135). -/
theorem Response.lawful_error {e : ErrorKind} (he : e ≠ .unsupportedWordSize) :
    Response.lawful { status := .error e, data := [] } = true := by
  cases e with
  | unsupportedWordSize => exact absurd rfl he
  | unsupportedKeyLength => rfl
  | invalidPlainTextSize => rfl

/-- The response of a block operation has the 8 bytes of a block (30_encoding.md R65). -/
theorem Response.lawful_storeBlock (AB : Word × Word) :
    Response.lawful { status := .ok, data := storeBlock AB } = true := by
  simp [Response.lawful]

/-- The last round a block operation runs is one of the core's. -/
theorem Datapath.fits_of_lastRound {lenw : Nat} {c : Configuration} {d : Datapath} (hc : c.legal lenw = true)
    (hr : d.r = c.R ∨ d.r = 1) : d.fits c = true := by
  obtain ⟨hR, -⟩ := (legal_iff lenw c).1 hc
  rw [Datapath.fits_iff]
  omega

theorem Served.inv {s t : State} (h : Served s t) (hi : s.inv = true) : t.inv = true := by
  cases h with
  | unchanged => exact hi
  | failed e he => exact State.inv_answered hi (Response.lawful_error he)
  | keyed c f key hb hp hd ha hl => exact State.inv_answered (State.inv_construct hi hb key) rfl
  | transformed c d AB hb hr =>
    have hd : d.fits c = true := Datapath.fits_of_lastRound (State.inv_legal hi hb) hr
    exact State.inv_answered (State.inv_setDatapath hi hb hd) (Response.lawful_storeBlock AB)

/-- Settles O50: each thing a step can do keeps the invariant; a value that is no frame is not served. -/
theorem stepKeepsTheInvariant : Obligations.StepKeepsTheInvariant := by
  intro s t hi h
  have hdrop : s.dropAction.inv = true := hi
  obtain h | rfl | ⟨-, rfl⟩ | ⟨w, r, kb, -, h⟩ := step_cases h
  · exact (served_of_serve h).inv (State.inv_setPort hdrop (port_fits_of_serve h))
  · exact State.inv_assertReset hdrop
  · exact State.inv_releaseReset hdrop
  · exact inv_of_execConfig hdrop h

/-! ### The reset state (R34, R151) -/

theorem step_releaseReset {s : State} (ha : s.action = .releaseReset) :
    step s = .next s.dropAction.releaseReset := by
  rw [step, ha]

/-- A core that is not `READY` does not accept a block operation (R115). -/
theorem blockOp_waits {s : State} {c : Configuration} (hb : s.build = .built c) (hst : s.st ≠ .ready)
    (f : Configuration → List Word → Word × Word → Word × Word) (lastRound : Configuration → Nat) (din : List Byte) :
    blockOp f lastRound din s = .next s := by
  rw [blockOp_built hb, if_neg (by simp [hst]), wait_eq]

/-- Outside `READY` both block commands wait (R115). -/
theorem exec_block_waits {s : State} {c : Configuration} (hb : s.build = .built c) (hst : s.st ≠ .ready)
    (din : List Byte) : exec (.encrypt din) s = .next s ∧ exec (.decrypt din) s = .next s :=
  ⟨blockOp_waits hb hst encryptWords _ din, blockOp_waits hb hst decryptWords _ din⟩

/-- Settles O18: the released core is `UNKEYED`, where both block commands wait. -/
theorem releasedResetGivesResetState : Obligations.ReleasedResetGivesResetState := by
  intro s c rest hb hreset hhost
  have ha : s.action = .releaseReset := by rw [State.action, hhost]; rfl
  have hstep := step_releaseReset ha
  rw [State.releaseReset_built s.dropAction hreset hb] at hstep
  exact ⟨_, hstep, rfl, rfl, rfl, rfl, hb, rfl, congrArg List.tail hhost, freeWords_length _ _, freeWords_length _ _,
    exec_block_waits hb (by simp)⟩

/-- Settles O17: the values are those `State.reset` writes out, its core that of the reference profile. -/
theorem resetStateValues : Obligations.ResetStateValues :=
  ⟨rfl, rfl, rfl, ⟨.reference, rfl, rfl, rfl, rfl, rfl, rfl, rfl, List.length_replicate, List.length_replicate⟩, rfl⟩

/-- Settles O49: the reference profile is legal at `LENW` 8, and the registers `State.reset` holds fit it. -/
theorem resetMeetsTheInvariant : Obligations.ResetMeetsTheInvariant := by
  have hlegal : Configuration.reference.legal defaultLenw = true := by decide
  have hkx : State.reset.kx.fits .reference = true := by decide
  have hdp : State.reset.dp.fits .reference = true := by decide
  exact (State.inv_iff _).2 ⟨by decide, rfl, rfl, (State.coreFits_built rfl).2 ⟨hlegal, hkx, hdp⟩⟩

end Sys2Proof.Machine
end

section
/-! PROOFS. Memory (20_memory.md): the payload bytes of a word and their order (R42, R43), the packed key (R44), the
indices of the register files (R45, R47), and which key a block command sees (R52). -/

namespace Sys2Proof.Machine

/-! ### Reading and writing a word (R42, R43) -/

theorem getElem?_eq_byteAt {buf : List Byte} {n : Nat} (h : n < buf.length) : buf[n]? = some (byteAt buf n) := by
  simp [byteAt, h]

theorem byteAt_of_getElem? {buf : List Byte} {n : Nat} {b : Byte} (h : buf[n]? = some b) : byteAt buf n = b := by
  simp [byteAt, h]

/-- R42's formula in naturals: four bytes never carry out of 32 bits. -/
theorem memRead_toNat (buf : List Byte) (off : Nat) :
    (memRead buf off).toNat = (byteAt buf off).toNat + (byteAt buf (off + 1)).toNat * 2 ^ 8 +
      (byteAt buf (off + 2)).toNat * 2 ^ 16 + (byteAt buf (off + 3)).toNat * 2 ^ 24 := by
  have h0 := (byteAt buf off).isLt
  have h1 := (byteAt buf (off + 1)).isLt
  have h2 := (byteAt buf (off + 2)).isLt
  have h3 := (byteAt buf (off + 3)).isLt
  simp only [memRead, BitVec.toNat_add, BitVec.toNat_shiftLeft, BitVec.toNat_setWidth, Nat.shiftLeft_eq]
  omega

/-- R43's formula for a byte of a word. -/
theorem wordByte_eq_ofNat (v : Word) (n : Nat) : wordByte v n = BitVec.ofNat 8 (v.toNat / 2 ^ (8 * n) % 256) := by
  apply BitVec.eq_of_toNat_eq
  simp [wordByte, Nat.shiftRight_eq_div_pow]

/-- The bytes of a buffer after a write: four of the word, all others as they were. -/
theorem memWrite_getElem? {buf : List Byte} {off : Nat} (v : Word) (h : off + 4 ≤ buf.length) (m : Nat) :
    (memWrite buf off v)[m]? = if off ≤ m ∧ m < off + 4 then some (wordByte v (m - off)) else buf[m]? := by
  by_cases hm : off ≤ m ∧ m < off + 4
  · have hin : off < buf.length ∧ off + 1 < buf.length ∧ off + 2 < buf.length ∧ off + 3 < buf.length := by omega
    rw [if_pos hm]
    obtain rfl | rfl | rfl | rfl : m = off ∨ m = off + 1 ∨ m = off + 2 ∨ m = off + 3 := by omega
    all_goals simp [memWrite, hin]
  · rw [if_neg hm, memWrite, List.getElem?_set_ne (by omega), List.getElem?_set_ne (by omega),
      List.getElem?_set_ne (by omega), List.getElem?_set_ne (by omega)]

theorem byteAt_memWrite {buf : List Byte} {off n : Nat} (v : Word) (h : off + 4 ≤ buf.length) (hn : n < 4) :
    byteAt (memWrite buf off v) (off + n) = wordByte v n := by
  apply byteAt_of_getElem?
  rw [memWrite_getElem? v h, if_pos (by omega), Nat.add_sub_cancel_left]

/-- A word is the sum of its four bytes at their places. -/
theorem wordByte_sum (v : Word) :
    (wordByte v 0).toNat + (wordByte v 1).toNat * 2 ^ 8 + (wordByte v 2).toNat * 2 ^ 16 +
      (wordByte v 3).toNat * 2 ^ 24 = v.toNat := by
  have hv := v.isLt
  simp only [wordByte_eq_ofNat, BitVec.toNat_ofNat]
  omega

theorem memRead_memWrite {buf : List Byte} {off : Nat} (v : Word) (h : off + 4 ≤ buf.length) :
    memRead (memWrite buf off v) off = v := by
  have h0 : byteAt (memWrite buf off v) off = wordByte v 0 := byteAt_memWrite (n := 0) v h (by decide)
  apply BitVec.eq_of_toNat_eq
  rw [memRead_toNat, h0, byteAt_memWrite v h (by decide), byteAt_memWrite v h (by decide),
    byteAt_memWrite v h (by decide), wordByte_sum]

/-- A word written over four blank bytes is its bytes in order. -/
theorem memWrite_blank (v : Word) : memWrite (List.replicate 4 0#8) 0 v = (List.range 4).map (wordByte v) := rfl

/-- An output block in closed form: every one of the eight blank bytes is written over. -/
theorem storeBlock_eq (A B : Word) :
    storeBlock (A, B) = (List.range 4).map (wordByte A) ++ (List.range 4).map (wordByte B) := rfl

/-- Settles O5: the four bytes are those `byteAt` finds. -/
theorem memReadIsLittleEndian : Obligations.MemReadIsLittleEndian := by
  intro buf off h
  exact ⟨_, _, _, _, getElem?_eq_byteAt (by omega), getElem?_eq_byteAt (by omega), getElem?_eq_byteAt (by omega),
    getElem?_eq_byteAt (by omega), memRead_toNat buf off⟩

/-- Settles O6: the bytes written are the bytes of the word, which sum up to it again. -/
theorem memWriteIsLittleEndian : Obligations.MemWriteIsLittleEndian := by
  refine ⟨fun buf off v h => ⟨fun m => ?_, memRead_memWrite v h⟩, fun A B => ?_⟩
  · rw [← wordByte_eq_ofNat]
    exact memWrite_getElem? v h m
  · rw [memWrite_blank, memWrite_blank, storeBlock_eq]

/-! ### The packed key (R44) -/

/-- A fold moves the word one byte up and puts the key byte below it (41_key_expansion.md R92). -/
theorem fold_toNat (x : Word) (b : Byte) :
    (add32 (x <<< 8) (b.setWidth 32)).toNat = (x.toNat * 2 ^ 8 + b.toNat) % 2 ^ 32 := by
  have hb := b.isLt
  simp only [add32_toNat, BitVec.toNat_shiftLeft, BitVec.toNat_setWidth, Nat.shiftLeft_eq]
  omega

/-- Four folds from the highest byte down move out whatever the word held: it is the four bytes, little-endian. -/
theorem fold_four_eq_memRead (key : List Byte) (off : Nat) (x : Word) :
    add32 (add32 (add32 (add32 (x <<< 8) ((byteAt key (off + 3)).setWidth 32) <<< 8)
      ((byteAt key (off + 2)).setWidth 32) <<< 8) ((byteAt key (off + 1)).setWidth 32) <<< 8)
        ((byteAt key off).setWidth 32) = memRead key off := by
  apply BitVec.eq_of_toNat_eq
  have h0 := (byteAt key off).isLt
  have h1 := (byteAt key (off + 1)).isLt
  have h2 := (byteAt key (off + 2)).isLt
  have h3 := (byteAt key (off + 3)).isLt
  simp only [fold_toNat, memRead_toNat]
  omega

theorem setEntry_setEntry (file : List Word) (n : Nat) (v w : Word) :
    setEntry (setEntry file n v) n w = setEntry file n w :=
  List.set_set v

/-- A fold enters the key byte into the word it belongs to (41_key_expansion.md R92). -/
theorem packByte_eq (c : Configuration) (key : List Byte) (L : List Word) {n q : Nat} (hn : n / 4 = q) :
    packByte c key n L = setEntry L q (add32 (entry L q <<< 8) ((byteAt key n).setWidth 32)) := by
  rw [packByte, bytesPerWord_eq, hn]

/-- The folds of the four bytes of word `q` write that word. -/
theorem packDown_word (c : Configuration) (key : List Byte) {L : List Word} {q : Nat} (hq : q < L.length) :
    packDown c key (4 * (q + 1)) L = packDown c key (4 * q) (setEntry L q (memRead key (4 * q))) := by
  have hfolds : packDown c key (4 * (q + 1)) L = packDown c key (4 * q) (packByte c key (4 * q)
      (packByte c key (4 * q + 1) (packByte c key (4 * q + 2) (packByte c key (4 * q + 3) L)))) := rfl
  have h0 : 4 * q / 4 = q := by omega
  have h1 : (4 * q + 1) / 4 = q := by omega
  have h2 : (4 * q + 2) / 4 = q := by omega
  have h3 : (4 * q + 3) / 4 = q := by omega
  rw [hfolds, packByte_eq c key _ h0, packByte_eq c key _ h1, packByte_eq c key _ h2, packByte_eq c key _ h3]
  simp only [setEntry_setEntry, entry_setEntry_self hq, fold_four_eq_memRead]

/-- The folds of bytes below word `q` leave word `q`. -/
theorem packDown_getElem?_of_le (c : Configuration) (key : List Byte) {n q : Nat} (h : n ≤ 4 * q) (L : List Word) :
    (packDown c key n L)[q]? = L[q]? := by
  induction n generalizing L with
  | zero => rfl
  | succ n ih =>
    rw [packDown, ih (by omega), packByte, setEntry, List.getElem?_set_ne]
    rw [bytesPerWord_eq]
    omega

/-- The folds of the first `m` words, counted in words, write each of them. -/
theorem packDown_getElem? (c : Configuration) (key : List Byte) {m q : Nat} {L : List Word} (hm : m ≤ L.length)
    (hq : q < m) : (packDown c key (4 * m) L)[q]? = some (memRead key (4 * q)) := by
  induction m generalizing L with
  | zero => omega
  | succ m ih =>
    rw [packDown_word c key hm]
    by_cases hqm : q = m
    · subst hqm
      rw [packDown_getElem?_of_le c key le_rfl, setEntry, List.getElem?_set_self hm]
    · exact ih (by rw [setEntry_length]; omega) (by omega)

/-- Settles O26: a legal key is `C` whole words. -/
theorem packedKeyIsLittleEndian : Obligations.PackedKeyIsLittleEndian := by
  intro lenw c key hc _
  obtain ⟨-, -, hdiv, -⟩ := (legal_iff lenw c).1 hc
  have hKB : c.KB = 4 * c.C := by
    rw [keyWords_eq]
    omega
  refine ⟨packKey_length c key, fun q hq => ?_⟩
  rw [packKey, hKB]
  exact packDown_getElem? c key (by rw [List.length_replicate]) hq

/-! ### The indices of the register files (R45, R47) -/

/-- Settles O29: the cursors start at 0 and wrap, and no mixing iteration resizes a register file. -/
theorem everyIndexIsInRange : Obligations.EveryIndexIsInRange := by
  intro lenw c key hc _
  obtain ⟨-, hKB, hdiv, -⟩ := (legal_iff lenw c).1 hc
  have hi : (mixStart c key).i < c.T := Nat.succ_pos _
  have hj : (mixStart c key).j < c.C := by
    rw [keyWords_eq]
    exact Nat.div_pos hKB (by decide)
  refine ⟨fun n hn => ?_, fun r _ hr => ?_, fun n => ⟨mixSteps_i_lt hi n, mixSteps_j_lt hj n, ?_, ?_⟩⟩
  · rw [bytesPerWord_eq, keyWords_eq]
    omega
  · rw [tableSize_eq]
    omega
  · rw [mixSteps_S_length]
    exact progression_length _ _
  · rw [mixSteps_L_length]
    exact packKey_length c key

/-! ### Which key a block command sees (R52) -/

theorem exec_keyload (key : List Byte) (s : State) : exec (.keyload key) s = execKeyload key s := rfl

theorem exec_encrypt (din : List Byte) (s : State) :
    exec (.encrypt din) s = blockOp encryptWords (fun c => c.R) din s := rfl

theorem exec_decrypt (din : List Byte) (s : State) :
    exec (.decrypt din) s = blockOp decryptWords (fun _ => 1) din s := rfl

/-- An accepted KEYLOAD of the right length builds the engine (41_key_expansion.md R90). -/
theorem exec_keyload_loads {s : State} {c : Configuration} {key : List Byte} (hb : s.build = .built c)
    (ha : s.acceptsKeyload = true) (hl : key.length = c.KB) :
    exec (.keyload key) s = .next ((construct c key s).answered { status := .ok, data := [] }) := by
  rw [exec_keyload, execKeyload_built hb, if_pos ha, if_neg (not_not.2 hl), respond_eq]

/-- An accepted KEYLOAD of any other length raises its error and no more (41_key_expansion.md R91). -/
theorem exec_keyload_rejects {s : State} {c : Configuration} {key : List Byte} (hb : s.build = .built c)
    (ha : s.acceptsKeyload = true) (hl : key.length ≠ c.KB) :
    exec (.keyload key) s = .next (s.answered { status := .error .unsupportedKeyLength, data := [] }) := by
  rw [exec_keyload, execKeyload_built hb, if_pos ha, if_pos hl, raise_eq]

/-- An accepted block operation has one response for a configuration and a table, and writes nothing else but the
datapath (42_block_cipher.md R116). -/
theorem blockOp_answers (f : Configuration → List Word → Word × Word → Word × Word) (lastRound : Configuration → Nat)
    (din : List Byte) (c : Configuration) (S : List Word) :
    ∃ ρ : Response, ∀ s : State, s.build = .built c → s.acceptsBlock = true → s.kx.S = S →
      ∃ d, blockOp f lastRound din s = .next ((s.setDatapath d).answered ρ) := by
  by_cases hl : din.length = 8
  · refine ⟨{ status := .ok, data := storeBlock (f c S (loadBlock din)) }, fun s hb ha hS => ?_⟩
    rw [blockOp_built hb, if_pos ha, if_neg (not_not.2 hl), respond_eq, hS]
    exact ⟨_, rfl⟩
  · refine ⟨{ status := .error .invalidPlainTextSize, data := [] }, fun s hb ha _ => ⟨s.dp, ?_⟩⟩
    rw [blockOp_built hb, if_pos ha, if_pos hl, raise_eq]
    rfl

/-- The same of either block command. -/
theorem exec_block_answers {i : Instr} (hi : ∃ din, i = .encrypt din ∨ i = .decrypt din) (c : Configuration)
    (S : List Word) :
    ∃ ρ : Response, ∀ s : State, s.build = .built c → s.acceptsBlock = true → s.kx.S = S →
      ∃ d, exec i s = .next ((s.setDatapath d).answered ρ) := by
  obtain ⟨din, rfl | rfl⟩ := hi
  · exact blockOp_answers encryptWords _ din c S
  · exact blockOp_answers decryptWords _ din c S

/-- Settles O42: both cores hold the table of `key` when the block command comes, and answer from it alone. -/
theorem blockCommandUsesTheLatestKey : Obligations.BlockCommandUsesTheLatestKey := by
  intro s s' c key bad i hi hb hb' hreset hreset' hst hst' hkey hbad
  obtain ⟨ρ, hρ⟩ := exec_block_answers hi c (expandKey c key).S
  have hload := exec_keyload_loads hb ((acceptsKeyload_iff s).2 ⟨hreset, hst⟩) hkey
  have hload' := exec_keyload_loads hb' ((acceptsKeyload_iff s').2 ⟨hreset', hst'⟩) hkey
  have hreject := exec_keyload_rejects (s := (construct c key s').answered { status := .ok, data := [] }) hb'
    (by simp [hreset']) hbad
  obtain ⟨d, hv⟩ := hρ ((construct c key s).answered { status := .ok, data := [] }) hb (by simp [hreset]) rfl
  obtain ⟨d', hv'⟩ := hρ (((construct c key s').answered { status := .ok, data := [] }).answered
    { status := .error .unsupportedKeyLength, data := [] }) hb' (by simp [hreset']) rfl
  exact ⟨_, _, _, _, _, hload, hv, hload', hreject, hv', rfl, Option.some_ne_none ρ, rfl, rfl⟩

/-- Settles O55: the first command leaves all that the second one's answer depends on. -/
theorem blockCommandsCommute : Obligations.BlockCommandsCommute := by
  intro s c i j hi hj hb hreset hst
  have ha : s.acceptsBlock = true := (acceptsBlock_iff s).2 ⟨hreset, hst⟩
  obtain ⟨ρ, hρ⟩ := exec_block_answers hi c s.kx.S
  obtain ⟨σ, hσ⟩ := exec_block_answers hj c s.kx.S
  obtain ⟨d, ht⟩ := hρ s hb ha rfl
  obtain ⟨e, hu⟩ := hσ ((s.setDatapath d).answered ρ) hb ha rfl
  obtain ⟨d', ht'⟩ := hσ s hb ha rfl
  obtain ⟨e', hu'⟩ := hρ ((s.setDatapath d').answered σ) hb ha rfl
  exact ⟨_, _, _, _, ht, hu, ht', hu', rfl, rfl, rfl, rfl⟩

end Sys2Proof.Machine
end

section
/-! PROOFS. The command format (30_encoding.md): the header (R62), decoding and encoding (R61 to R68), what a step runs
(R70), what a core refuses (R66), and a program of frames (R71); with them the parameter sets `CONFIG` refuses
(40_configuration.md R82) and the response header (R65). -/

namespace Sys2Proof.Machine

/-! ### The headers (R62, R65, R69) -/

/-- Two bits below a field add their value to four times the field's. -/
theorem toNat_append_two {n : Nat} (x : BitVec n) (y : BitVec 2) : (x ++ y).toNat = y.toNat + 4 * x.toNat := by
  rw [BitVec.toNat_append, Nat.shiftLeft_eq, Nat.mul_comm, ← Nat.two_pow_add_eq_or_of_lt y.isLt, Nat.add_comm]

theorem toNat_ofNat_of_fits {lenw len : Nat} (h : len < 2 ^ lenw) : (BitVec.ofNat lenw len).toNat = len := by
  rw [BitVec.toNat_ofNat, Nat.mod_eq_of_lt h]

theorem packHeader_toNat {lenw len : Nat} (op : BitVec 2) (h : len < 2 ^ lenw) :
    (packHeader lenw op len).toNat = op.toNat + 4 * len := by
  rw [packHeader, toNat_append_two, toNat_ofNat_of_fits h]

@[simp] theorem headerOp_packHeader (lenw : Nat) (op : BitVec 2) (len : Nat) :
    headerOp (packHeader lenw op len) = op :=
  BitVec.extractLsb'_append_eq_right

theorem headerLen_packHeader {lenw len : Nat} (op : BitVec 2) (h : len < 2 ^ lenw) :
    headerLen (packHeader lenw op len) = len := by
  rw [headerLen, packHeader, BitVec.extractLsb'_append_eq_left, toNat_ofNat_of_fits h]

theorem packHeader_headerOp_headerLen {lenw : Nat} (ch : BitVec (lenw + 2)) :
    packHeader lenw (headerOp ch) (headerLen ch) = ch := by
  rw [packHeader, headerOp, headerLen, BitVec.ofNat_toNat, BitVec.setWidth_eq,
    BitVec.extractLsb'_append_extractLsb'_eq_extractLsb' (Nat.zero_add 2).symm, BitVec.extractLsb'_eq_self]

/-- A header's `len` field can say no more than its `LENW` bits (R61). -/
theorem headerLen_lt {lenw : Nat} (ch : BitVec (lenw + 2)) : headerLen ch < 2 ^ lenw :=
  BitVec.isLt _

/-- Settles O7: the two fields stand side by side in the header and fill it. -/
theorem headerHoldsOpAndLen : Obligations.HeaderHoldsOpAndLen := by
  intro lenw op len h
  exact ⟨packHeader_toNat op h, headerOp_packHeader lenw op len, headerLen_packHeader op h,
    packHeader_headerOp_headerLen⟩

/-- Settles O43: the response header has the shape of the command header, with four bits for the length. -/
theorem responseHeaderCodes : Obligations.ResponseHeaderCodes := by
  refine ⟨rfl, rfl, rfl, rfl, fun ρ h => ?_⟩
  have hrlen : ρ.rlen.toNat = ρ.data.length := toNat_ofNat_of_fits h
  exact ⟨by rw [Response.header, toNat_append_two, hrlen], hrlen⟩

/-! ### From a frame to an instruction (R61, R63, R64) -/

theorem decode_of_fits {lenw : Nat} {f : Frame} (h : f.payload.length < 2 ^ lenw) :
    decode lenw f = .ok (opcodeMap f) :=
  if_pos h

theorem decode_of_too_long {lenw : Nat} {f : Frame} (h : 2 ^ lenw ≤ f.payload.length) :
    decode lenw f = .error .lengthNotExpressible :=
  if_neg (Nat.not_lt.2 h)

/-- The length of the payload is all a frame can be rejected for (R61). -/
theorem decode_error {lenw : Nat} {f : Frame} {e : DecodeReject} (h : decode lenw f = .error e) :
    e = .lengthNotExpressible ∧ 2 ^ lenw ≤ f.payload.length := by
  by_cases hl : f.payload.length < 2 ^ lenw
  · rw [decode_of_fits hl] at h
    exact nomatch h
  · rw [decode_of_too_long (Nat.not_lt.1 hl)] at h
    exact ⟨(Except.error.inj h).symm, Nat.not_lt.1 hl⟩

/-- The opcode map loses nothing: the frame is that of its instruction. -/
theorem encode_opcodeMap (f : Frame) : encode (opcodeMap f) = some f := by
  obtain ⟨op, payload⟩ := f
  have hop : op = 0#2 ∨ op = 1#2 ∨ op = 2#2 ∨ op = 3#2 := by
    revert op
    decide
  obtain rfl | rfl | rfl | rfl := hop <;> rfl

/-- An instruction's payload is that of its frame, so its well-formedness is the frame's length (R61). -/
theorem wellFormed_of_encode {lenw : Nat} {i : Instr} {f : Frame} (h : encode i = some f) :
    i.wellFormed lenw = true ↔ f.payload.length < 2 ^ lenw := by
  cases i with
  | config w r kb => exact nomatch h
  | keyload p | encrypt p | decrypt p | reserved p =>
    obtain rfl := Option.some.inj h
    exact decide_eq_true_iff

/-- `CONFIG` alone has no frame (R67). -/
theorem exists_encode {i : Instr} (h : ∀ w r kb, i ≠ .config w r kb) : ∃ f, encode i = some f := by
  cases i with
  | config w r kb => exact absurd rfl (h w r kb)
  | keyload p | encrypt p | decrypt p | reserved p => exact ⟨_, rfl⟩

/-- The frame of any well-formed instruction decodes to it: the laws of the constructors together. -/
theorem decode_of_encode {lenw : Nat} {i : Instr} {f : Frame} (hw : i.wellFormed lenw = true)
    (h : encode i = some f) : decode lenw f = .ok i := by
  cases i with
  | config w r kb => exact Laws.Encoding.config w r kb lenw f hw h
  | keyload key => exact Laws.Encoding.keyload key lenw f hw h
  | encrypt din => exact Laws.Encoding.encrypt din lenw f hw h
  | decrypt din => exact Laws.Encoding.decrypt din lenw f hw h
  | reserved payload => exact Laws.Encoding.reserved payload lenw f hw h

/-- Settles O8: a payload that fits gives each opcode its row of the map, one that does not is no frame. -/
theorem opcodeMapIsComplete : Obligations.OpcodeMapIsComplete := by
  intro lenw payload
  exact ⟨fun h => ⟨decode_of_fits h, decode_of_fits h, decode_of_fits h, decode_of_fits h⟩,
    fun h op => decode_of_too_long h⟩

/-! ### From a header and bytes to an instruction (R62, R68) -/

/-- The frame a header and the bytes after it stand for, if there are enough of them (R68). -/
def wireFrame {lenw : Nat} (ch : BitVec (lenw + 2)) (bytes : List Byte) : Frame :=
  { op := headerOp ch, payload := bytes.take (headerLen ch) }

theorem wireFrame_length {lenw : Nat} {ch : BitVec (lenw + 2)} {bytes : List Byte} (h : headerLen ch ≤ bytes.length) :
    (wireFrame ch bytes).payload.length = headerLen ch :=
  List.length_take_of_le h

theorem wireFrame_fits {lenw : Nat} {ch : BitVec (lenw + 2)} {bytes : List Byte} (h : headerLen ch ≤ bytes.length) :
    (wireFrame ch bytes).payload.length < 2 ^ lenw := by
  rw [wireFrame_length h]
  exact headerLen_lt ch

/-- Where enough bytes follow the header they are decoded, whatever they are. -/
theorem decodeWire_of_le {lenw : Nat} {ch : BitVec (lenw + 2)} {bytes : List Byte}
    (h : headerLen ch ≤ bytes.length) :
    decodeWire ch bytes = .ok (opcodeMap (wireFrame ch bytes), bytes.drop (headerLen ch)) := by
  have hread : readFrame ch bytes = .ok (wireFrame ch bytes, bytes.drop (headerLen ch)) := if_pos h
  simp only [decodeWire, hread, decode_of_fits (wireFrame_fits h)]

theorem decodeWire_truncated {lenw : Nat} {ch : BitVec (lenw + 2)} {bytes : List Byte}
    (h : bytes.length < headerLen ch) : decodeWire ch bytes = .error .payloadTruncated := by
  have hread : readFrame ch bytes = .error .payloadTruncated := if_neg (Nat.not_le.2 h)
  simp only [decodeWire, hread]

/-- What decodes is a header with enough bytes after it. -/
theorem decodeWire_ok {lenw : Nat} {ch : BitVec (lenw + 2)} {bytes rest : List Byte} {i : Instr}
    (h : decodeWire ch bytes = .ok (i, rest)) :
    headerLen ch ≤ bytes.length ∧ i = opcodeMap (wireFrame ch bytes) ∧ rest = bytes.drop (headerLen ch) := by
  by_cases hle : headerLen ch ≤ bytes.length
  · rw [decodeWire_of_le hle] at h
    obtain ⟨hi, hrest⟩ := Prod.mk.inj (Except.ok.inj h)
    exact ⟨hle, hi.symm, hrest.symm⟩
  · rw [decodeWire_truncated (Nat.not_le.1 hle)] at h
    exact nomatch h

/-- The header and payload of a frame, with anything after them, are read as that frame (R68). -/
theorem decodeWire_frame {lenw : Nat} {f : Frame} (h : f.payload.length < 2 ^ lenw) (rest : List Byte) :
    decodeWire (frameHeader lenw f) (f.payload ++ rest) = .ok (opcodeMap f, rest) := by
  have hlen : headerLen (frameHeader lenw f) = f.payload.length := headerLen_packHeader f.op h
  have hframe : wireFrame (frameHeader lenw f) (f.payload ++ rest) = f := by
    rw [wireFrame, hlen, List.take_left, frameHeader, headerOp_packHeader]
  rw [decodeWire_of_le (by rw [hlen, List.length_append]; omega), hframe, hlen, List.drop_left]

/-- The frame read off a header and bytes has that header. -/
theorem frameHeader_wireFrame {lenw : Nat} {ch : BitVec (lenw + 2)} {bytes : List Byte}
    (h : headerLen ch ≤ bytes.length) : frameHeader lenw (wireFrame ch bytes) = ch := by
  rw [frameHeader, wireFrame_length h]
  exact packHeader_headerOp_headerLen ch

theorem encodeWire_of_encode {lenw : Nat} {i : Instr} {f : Frame} (h : encode i = some f) :
    encodeWire lenw i = some (frameHeader lenw f, f.payload) := by
  rw [encodeWire, h, Option.map_some]

/-- Settles O9: the instruction has a frame, whose header and payload are read as that frame again. -/
theorem decodeOfEncodeIsIdentity : Obligations.DecodeOfEncodeIsIdentity := by
  intro lenw i rest hw hn
  obtain ⟨f, hf⟩ := exists_encode hn
  obtain ⟨rfl, hl⟩ := decode_ok (decode_of_encode hw hf)
  exact ⟨_, _, encodeWire_of_encode hf, decodeWire_frame hl rest⟩

/-- Settles O10: the frame that was read has the header it was read from, and its payload is the bytes used. -/
theorem encodeOfDecodeIsIdentity : Obligations.EncodeOfDecodeIsIdentity := by
  intro lenw ch bytes rest i h
  obtain ⟨hle, rfl, rfl⟩ := decodeWire_ok h
  have hf := encode_opcodeMap (wireFrame ch bytes)
  refine ⟨(wellFormed_of_encode hf).2 (wireFrame_fits hle), bytes.take (headerLen ch), ?_,
    (List.take_append_drop _ bytes).symm⟩
  rw [encodeWire_of_encode hf, frameHeader_wireFrame hle]
  rfl

/-- Settles O11: `len` bytes are enough under every opcode. -/
theorem frameLengthComesFromHeader : Obligations.FrameLengthComesFromHeader := by
  intro lenw ch bytes
  exact ⟨fun h => ⟨_, decodeWire_of_le h⟩, decodeWire_truncated⟩

/-- Settles O12: both decoders end in the opcode map, which has no row for `CONFIG`. -/
theorem configHasNoFrame : Obligations.ConfigHasNoFrame := by
  intro w r kb
  refine ⟨rfl, fun lenw f h => ?_, fun lenw ch bytes rest h => ?_⟩
  · exact opcodeMap_ne_config f w r kb (decode_ok h).1.symm
  · obtain ⟨-, hi, -⟩ := decodeWire_ok h
    exact opcodeMap_ne_config _ w r kb hi.symm

/-- Settles O13: each of the seven words is a small closed computation. -/
theorem tableWordsDecodeRight : Obligations.TableWordsDecodeRight := by
  refine ⟨?_, ?_, ?_, ?_, ?_, ?_, ?_⟩ <;> decide

/-- What a word decodes to has a frame that decodes to it, at the `LENW` of words. -/
theorem decodeTableWord_frame {nbits w : Nat} {i : Instr} (h : decodeTableWord nbits w = some i) :
    ∃ f, encode i = some f ∧ decode 8 f = .ok i := by
  unfold decodeTableWord at h
  split at h
  · next j rest hwire =>
    obtain rfl := Option.some.inj h
    obtain ⟨hle, rfl, -⟩ := decodeWire_ok hwire
    exact ⟨_, encode_opcodeMap _, decode_of_fits (wireFrame_fits hle)⟩
  · exact nomatch h

/-! ### What a step runs (R70, R148) -/

theorem serve_idle {s : State} (hp : s.port = none) : serve s = .next s := by
  simp only [serve, hp]

theorem serve_frame {s : State} {f : Frame} {i : Instr} (hp : s.port = some f) (hd : decode s.lenw f = .ok i) :
    serve s = exec i s := by
  simp only [serve, hp, hd]

theorem serve_rejects {s : State} {f : Frame} {e : DecodeReject} (hp : s.port = some f)
    (hd : decode s.lenw f = .error e) : serve s = .refused (.undecodable e) := by
  simp only [serve, hp, hd]

/-- With nothing listed the host holds. -/
theorem step_host_nil {s : State} (h : s.host = []) : step s = serve s := by
  have ha : s.action = .hold := by rw [State.action, h]; rfl
  have hdrop : s.dropAction = s := by rw [State.dropAction, h, List.tail_nil, ← h]
  rw [step, ha, hdrop]

theorem step_hold {s : State} {rest : List HostAction} (h : s.host = .hold :: rest) :
    step s = serve { s with host := rest } := by
  have ha : s.action = .hold := by rw [State.action, h]; rfl
  rw [step, ha, State.dropAction, h]
  rfl

theorem step_present {s : State} {f : Frame} {rest : List HostAction} (h : s.host = .present f :: rest) :
    step s = serve { s with host := rest, port := some f } := by
  have ha : s.action = .present f := by rw [State.action, h]; rfl
  rw [step, ha, State.dropAction, h]
  rfl

theorem step_withdraw {s : State} {rest : List HostAction} (h : s.host = .withdraw :: rest) :
    step s = .next { s with host := rest, port := none } := by
  have ha : s.action = .withdraw := by rw [State.action, h]; rfl
  rw [step, ha, State.dropAction, h]
  rfl

/-- A presented frame runs in the step it is presented in. -/
theorem step_present_frame {s : State} {f : Frame} {i : Instr} {rest : List HostAction}
    (h : s.host = .present f :: rest) (hd : decode s.lenw f = .ok i) :
    step s = exec i { s with host := rest, port := some f } :=
  (step_present h).trans (serve_frame rfl hd)

/-- Settles O14: the host's action is off its list, and then the core serves the frame. -/
theorem stepRunsThePresentedFrame : Obligations.StepRunsThePresentedFrame := by
  intro s f i hd
  exact ⟨fun hh hp => (step_host_nil hh).trans (serve_frame hp hd),
    fun _ hh hp => (step_hold hh).trans (serve_frame hp hd), fun _ hh => step_present_frame hh hd⟩

/-- Settles O15: the word's frame is on the port, and the host holds. -/
theorem stepRunsTheFetchWord : Obligations.StepRunsTheFetchWord := by
  intro s nbits w i hlenw h
  obtain ⟨f, hf, hd⟩ := decodeTableWord_frame h
  have hword : s.withFetchWord nbits w = { s with port := some f, host := .hold :: s.host } := by
    rw [State.withFetchWord, h, Option.bind_some, hf]
  rw [← hlenw] at hd
  rw [hword]
  exact ⟨f, hf, (step_hold rfl).trans (serve_frame rfl hd)⟩

/-- Settles O16: the core has nothing to serve, or a value that is no frame. -/
theorem stepWithoutFrameIsIdle : Obligations.StepWithoutFrameIsIdle := by
  intro s
  exact ⟨fun hh hp => (step_host_nil hh).trans (serve_idle hp), fun _ hh => step_withdraw hh,
    fun _ _ hh hl => (step_present hh).trans (serve_rejects rfl (decode_of_too_long hl))⟩

/-- Settles O46: opcode 00 is refused by its meaning, which a step that presents it runs. -/
theorem reservedOpcodeIsRefused : Obligations.ReservedOpcodeIsRefused := by
  intro s payload
  exact ⟨rfl, fun _ hh hl => step_present_frame hh (decode_of_fits hl)⟩

/-- Outside `READY` a block command waits, whichever it is (R115). -/
theorem exec_block_stays {s : State} {c : Configuration} {i : Instr}
    (hi : ∃ din, i = .encrypt din ∨ i = .decrypt din) (hb : s.build = .built c) (hst : s.st ≠ .ready) :
    exec i s = .next s := by
  obtain ⟨din, rfl | rfl⟩ := hi
  · exact (exec_block_waits hb hst din).1
  · exact (exec_block_waits hb hst din).2

/-- Settles O54: the block command waits and is still on the port, where the host's next action overwrites it. -/
theorem withdrawnFrameLeavesNoTrace : Obligations.WithdrawnFrameLeavesNoTrace := by
  intro s c f i rest hi hb hst hd
  have hwaits : ∀ later, s.host = .present f :: later → step s = .next { s with host := later, port := some f } :=
    fun _ hh => (step_present_frame hh hd).trans (exec_block_stays hi hb hst)
  refine ⟨fun hh => ⟨_, hwaits _ hh, step_withdraw rfl⟩, fun g hh => ⟨_, hwaits _ hh, ?_⟩⟩
  rw [step_present rfl, step_present rfl]

/-! ### The parameter sets `CONFIG` refuses (R61, R67, R82) -/

theorem execConfig_built {s : State} {c : Configuration} (hb : s.build = .built c) (w r kb : Int) :
    execConfig w r kb s = .refused .coreAlreadyBuilt := by
  simp only [execConfig, hb]

theorem buildCore_illegal {s : State} {r kb : Int}
    (hl : Configuration.legal s.lenw { R := r.toNat, KB := kb.toNat } ≠ true) :
    buildCore 32 r kb s = .refused .parametersNotBuildable := by
  rw [buildCore, if_neg (not_not.2 rfl), if_neg hl]

/-- A legal configuration made of integers meets the bounds R61 and R82 set on them. -/
theorem integers_of_legal {lenw : Nat} {r kb : Int}
    (hl : Configuration.legal lenw { R := r.toNat, KB := kb.toNat } = true) :
    1 ≤ r ∧ 4 ≤ kb ∧ kb % 4 = 0 ∧ kb < 2 ^ lenw ∧ 8 < 2 ^ lenw := by
  obtain ⟨hr, hkb, hdiv, hlen, hblk⟩ := (legal_iff lenw _).1 hl
  dsimp only at hr hkb hdiv hlen
  have hlen' : (kb.toNat : Int) < 2 ^ lenw := by exact_mod_cast hlen
  exact ⟨by omega, by omega, by omega, by omega, hblk⟩

/-- Settles O23: a parameter set that is built meets every bound. -/
theorem configRefusesOtherParameters : Obligations.ConfigRefusesOtherParameters := by
  refine ⟨fun s r kb hb hbad => ?_, fun s c w r kb hb => ?_⟩
  · rw [exec_config, execConfig_noCore hb]
    refine buildCore_illegal fun hl => ?_
    obtain ⟨hr, hkb, hdiv, hlen, hblk⟩ := integers_of_legal hl
    omega
  · rw [exec_config, execConfig_built hb]

/-! ### What a core that exists answers and refuses (R65, R66, R160) -/

/-- A block operation on a core that exists waits, raises or answers. -/
theorem blockOp_next {s : State} {c : Configuration} (hb : s.build = .built c)
    (f : Configuration → List Word → Word × Word → Word × Word) (lastRound : Configuration → Nat)
    (din : List Byte) : ∃ t, blockOp f lastRound din s = .next t := by
  rw [blockOp_built hb]
  split
  · split
    · exact ⟨_, rfl⟩
    · exact ⟨_, rfl⟩
  · exact ⟨_, rfl⟩

/-- KEYLOAD on a core that exists waits, raises or builds the engine. -/
theorem execKeyload_next {s : State} {c : Configuration} (hb : s.build = .built c) (key : List Byte) :
    ∃ t, execKeyload key s = .next t := by
  rw [execKeyload_built hb]
  split
  · split
    · exact ⟨_, rfl⟩
    · exact ⟨_, rfl⟩
  · exact ⟨_, rfl⟩

/-- Of the instructions with a frame a core that exists refuses opcode 00 only. -/
theorem exec_refused {s : State} {c : Configuration} {i : Instr} {why : Refusal} (hb : s.build = .built c)
    (hn : ∀ w r kb, i ≠ .config w r kb) (h : exec i s = .refused why) :
    why = .reservedOpcode ∧ ∃ payload, i = .reserved payload := by
  cases i with
  | config w r kb => exact absurd rfl (hn w r kb)
  | keyload key =>
    obtain ⟨t, ht⟩ := execKeyload_next hb key
    exact nomatch ht.symm.trans h
  | encrypt din =>
    obtain ⟨t, ht⟩ := blockOp_next hb encryptWords (fun c => c.R) din
    exact nomatch ht.symm.trans h
  | decrypt din =>
    obtain ⟨t, ht⟩ := blockOp_next hb decryptWords (fun _ => 1) din
    exact nomatch ht.symm.trans h
  | reserved payload => exact ⟨(Host.Outcome.refused.inj h).symm, payload, rfl⟩

/-- Only opcode 00 is mapped to the reserved instruction (R63). -/
theorem op_of_opcodeMap_reserved {f : Frame} {payload : List Byte} (h : opcodeMap f = .reserved payload) :
    f.op = 0#2 := by
  have hf := encode_opcodeMap f
  rw [h] at hf
  exact congrArg Frame.op (Option.some.inj hf).symm

/-- A core that exists and serves its port refuses opcode 00 and a value no frame can hold (R61, R66). -/
theorem serve_refused {s : State} {c : Configuration} {why : Refusal} (hb : s.build = .built c)
    (h : serve s = .refused why) :
    ∃ f, s.port = some f ∧
      (why = .reservedOpcode ∧ f.op = 0#2 ∨
        why = .undecodable .lengthNotExpressible ∧ 2 ^ s.lenw ≤ f.payload.length) := by
  cases hp : s.port with
  | none =>
    rw [serve_idle hp] at h
    exact nomatch h
  | some f =>
    refine ⟨f, rfl, ?_⟩
    cases hd : decode s.lenw f with
    | error e =>
      rw [serve_rejects hp hd] at h
      obtain ⟨rfl, hl⟩ := decode_error hd
      exact .inr ⟨(Host.Outcome.refused.inj h).symm, hl⟩
    | ok i =>
      rw [serve_frame hp hd] at h
      obtain ⟨rfl, -⟩ := decode_ok hd
      obtain ⟨hwhy, payload, hi⟩ := exec_refused hb (opcodeMap_ne_config f) h
      exact .inl ⟨hwhy, op_of_opcodeMap_reserved hi⟩

/-- A step is refused by the core that serves what the host offers, or by a build. -/
theorem step_refused {s : State} {why : Refusal} (h : step s = .refused why) :
    serve (s.dropAction.setPort s.offered) = .refused why ∨
      ∃ w r kb, s.action = .build w r kb ∧ execConfig w r kb s.dropAction = .refused why := by
  unfold step at h
  split at h
  · next ha => exact .inl (by rw [State.offered, ha]; exact h)
  · next f ha => exact .inl (by rw [State.offered, ha]; exact h)
  · next ha => exact .inl (by rw [State.offered, ha]; exact h)
  · exact nomatch h
  · exact nomatch h
  · next w r kb ha => exact .inr ⟨w, r, kb, ha, h⟩

/-- Settles O52: the core serves what the host offers, and a build on a core that exists is a second `CONFIG`. -/
theorem refusalsAreComplete : Obligations.RefusalsAreComplete := by
  intro s c why hb h
  obtain h | ⟨w, r, kb, ha, h⟩ := step_refused h
  · obtain ⟨f, hp, ⟨rfl, hop⟩ | ⟨rfl, hl⟩⟩ := serve_refused (s := s.dropAction.setPort s.offered) hb h
    · exact .inl ⟨rfl, f, hp, hop⟩
    · exact .inr (.inl ⟨rfl, f, hp, hl⟩)
  · rw [execConfig_built (s := s.dropAction) hb] at h
    exact .inr (.inr ⟨(Host.Outcome.refused.inj h).symm, w, r, kb, ha⟩)

/-- What the host's duty asks of the frame it offers (R66, R70). -/
theorem State.hostDuty_offered {s : State} {f : Frame} (hd : s.hostDuty = true) (ho : s.offered = some f) :
    f.op ≠ 0#2 ∧ f.payload.length < 2 ^ s.lenw := by
  rw [State.hostDuty, Bool.and_eq_true, ho, Option.all_some, Bool.and_eq_true, decide_eq_true_iff,
    decide_eq_true_iff] at hd
  exact hd.1

/-- A dutiful host sends no second `CONFIG` (R60). -/
theorem State.hostDuty_action {s : State} {w r kb : Int} (hd : s.hostDuty = true) : s.action ≠ .build w r kb := by
  intro ha
  rw [State.hostDuty, ha, Bool.and_false] at hd
  exact nomatch hd

theorem Served.build {s t : State} (h : Served s t) : t.build = s.build := by
  cases h <;> rfl

theorem Served.host {s t : State} (h : Served s t) : t.host = s.host := by
  cases h <;> rfl

/-- No step changes the Configuration of a core that exists (40_configuration.md R83). -/
theorem step_keeps_build {s t : State} {c : Configuration} (hb : s.build = .built c) (h : step s = .next t) :
    t.build = .built c := by
  obtain h | rfl | ⟨-, rfl⟩ | ⟨w, r, kb, -, h⟩ := step_cases h
  · exact (served_of_serve h).build.trans hb
  · exact hb
  · exact (State.releaseReset_build _).trans hb
  · exact absurd hb ((execConfig_cases h).1 c)

/-- Settles O51: no step faults, and each of the three refusals is something a dutiful host does not send. -/
theorem dutifulHostIsNeverRefused : Obligations.DutifulHostIsNeverRefused := by
  intro s c hi hb hd
  cases h : step s with
  | next t => exact ⟨t, rfl, stepKeepsTheInvariant s t hi h, step_keeps_build hb h⟩
  | fault why => exact nomatch why
  | refused why =>
    obtain ⟨-, f, ho, hop⟩ | ⟨-, f, ho, hl⟩ | ⟨-, w, r, kb, ha⟩ := refusalsAreComplete s c why hb h
    · exact absurd hop (State.hostDuty_offered hd ho).1
    · exact absurd hl (Nat.not_le.2 (State.hostDuty_offered hd ho).2)
    · exact absurd ha (State.hostDuty_action hd)

/-- An accepted block command is answered, whatever its payload. -/
theorem exec_block_responds {s : State} {c : Configuration} {i : Instr}
    (hi : ∃ din, i = .encrypt din ∨ i = .decrypt din) (hb : s.build = .built c) (ha : s.acceptsBlock = true) :
    ∃ t ρ, exec i s = .next t ∧ t.rsp = some ρ ∧ t.port = none := by
  obtain ⟨ρ, hρ⟩ := exec_block_answers hi c s.kx.S
  obtain ⟨d, ht⟩ := hρ s hb ha rfl
  exact ⟨_, ρ, ht, rfl, rfl⟩

/-- Settles O45: an accepted KEYLOAD loads or is rejected, and both are answers. -/
theorem everyAcceptedCommandIsAnswered : Obligations.EveryAcceptedCommandIsAnswered := by
  intro s c payload hb
  refine ⟨fun ha => ?_, fun ha => ⟨exec_block_responds ⟨payload, .inl rfl⟩ hb ha,
    exec_block_responds ⟨payload, .inr rfl⟩ hb ha⟩⟩
  by_cases hl : payload.length = c.KB
  · exact ⟨_, _, exec_keyload_loads hb ha hl, rfl, rfl⟩
  · exact ⟨_, _, exec_keyload_rejects hb ha hl, rfl, rfl⟩

/-! ### A program of frames (R71) -/

/-- What the host will do next plays no part in how the core serves its port. -/
theorem serve_setHost {s t : State} (h : serve s = .next t) (later : List HostAction) :
    serve { s with host := later } = .next { t with host := later } := by
  obtain ⟨hp, rfl⟩ | ⟨f, i, hp, hd, he⟩ := serve_next h
  · exact serve_idle hp
  · obtain ⟨rfl, -⟩ := decode_ok hd
    exact (serve_frame (s := { s with host := later }) hp hd).trans (exec_setHost (opcodeMap_ne_config f) he later)

/-- A frame presented alone is answered as it is with more to come, and leaves the host's list empty. -/
theorem step_present_later {s t : State} {f : Frame} (h : step { s with host := [.present f] } = .next t)
    (later : List HostAction) :
    t.host = [] ∧ step { s with host := .present f :: later } = .next { t with host := later } := by
  rw [step_present rfl] at h
  refine ⟨(served_of_serve h).host, ?_⟩
  rw [step_present rfl]
  exact serve_setHost h later

/-- A run of frames that ends normally answers the first frame, and then the others. -/
theorem runFrames_cons {f : Frame} {fs : List Frame} {s u : State} {responses : List Response}
    (h : runFrames (f :: fs) s = some (responses, u)) :
    ∃ t ρ others, step { s with host := [.present f] } = .next t ∧ runFrames fs t = some (others, u) ∧
      responses = ρ :: others := by
  unfold runFrames at h
  split at h
  · next t hstep =>
    split at h
    · next ρ _ _ =>
      obtain ⟨⟨others, v⟩, hrun, hout⟩ := Option.map_eq_some_iff.1 h
      obtain ⟨rfl, rfl⟩ := Prod.mk.inj hout
      exact ⟨t, ρ, others, hstep, hrun, rfl⟩
    · exact nomatch h
    · exact nomatch h
  · exact nomatch h
  · exact nomatch h

/-- Settles O56, by induction on the frames: the first step is the same but for the host's list. -/
theorem backToBackFramesEndAlike : Obligations.BackToBackFramesEndAlike := by
  intro frames
  induction frames with
  | nil =>
    intro s t responses hh h
    obtain ⟨rfl, rfl⟩ := Prod.mk.inj (Option.some.inj h)
    refine ⟨rfl, ?_⟩
    rw [List.map_nil, ← hh]
    rfl
  | cons f fs ih =>
    intro s u responses hh h
    obtain ⟨t, ρ, others, hstep, hrun, rfl⟩ := runFrames_cons h
    obtain ⟨hhost, hlater⟩ := step_present_later hstep (fs.map .present)
    obtain ⟨hlen, hend⟩ := ih t u others hhost hrun
    refine ⟨congrArg Nat.succ hlen, ?_⟩
    rw [List.length_cons, List.map_cons, runSteps, hlater]
    exact hend

end Sys2Proof.Machine
end

section
/-! PROOFS. Configuration (40_configuration.md): `CONFIG` with another word size (R80), what runs where no core exists
(R80, R131), and that a Configuration is never changed (R83). -/

namespace Sys2Proof.Machine

/-- A KEYLOAD that answers a next state keeps the Configuration, whatever it did. -/
theorem execKeyload_keeps_build {key : List Byte} {s t : State} (h : execKeyload key s = .next t) :
    t.build = s.build := by
  obtain ⟨c, -, ⟨-, rfl⟩ | ⟨-, -, rfl⟩ | ⟨-, -, rfl⟩⟩ := execKeyload_cases h
  · rfl
  · rfl
  · rfl

/-- No operation changes the Configuration of a core that exists (40_configuration.md R83). -/
theorem exec_keeps_build {i : Instr} {s t : State} {c : Configuration} (hb : s.build = .built c)
    (h : exec i s = .next t) : t.build = .built c := by
  cases i with
  | config w r kb => exact absurd hb ((execConfig_cases h).1 c)
  | keyload key => exact (execKeyload_keeps_build h).trans hb
  | encrypt din => exact (served_of_blockOp (fun _ => .inl rfl) h).build.trans hb
  | decrypt din => exact (served_of_blockOp (fun _ => .inr rfl) h).build.trans hb
  | reserved payload => exact nomatch h

/-- Settles O24: neither a step nor an operation that answers a next state writes the Configuration. -/
theorem configurationIsImmutable : Obligations.ConfigurationIsImmutable := by
  intro s c hb
  exact ⟨fun _ h => step_keeps_build hb h, fun _ _ h => exec_keeps_build hb h⟩

/-- The word size is tested first, so its error is the result of the build for every `r` and `kb` (R80). -/
theorem buildCore_otherWordSize {w : Int} (hw : w ≠ 32) (r kb : Int) (s : State) :
    buildCore w r kb s = .next { s with build := .failed .unsupportedWordSize } :=
  if_pos hw

/-- Settles O22: where no core exists `CONFIG` is evaluated, and its first test fails. -/
theorem configRejectsOtherWordSizes : Obligations.ConfigRejectsOtherWordSizes := by
  intro s w r kb hb hw
  rw [exec_config, execConfig_noCore hb, buildCore_otherWordSize hw]

/-- Settles O25: all three commands run on the core that exists, and there is none. -/
theorem noCoreRunsNoCommand : Obligations.NoCoreRunsNoCommand := by
  intro s payload hb
  exact ⟨onCore_noCore hb _, onCore_noCore hb _, onCore_noCore hb _⟩

end Sys2Proof.Machine
end

section
/-! PROOFS. Key expansion (41_key_expansion.md): the initial table (R93), the mixing iteration (R94), and KEYLOAD as a
whole (R90 to R101). -/

namespace Sys2Proof.Machine

/-! ### The initial table (R93) -/

/-- One step more in an arithmetic progression of words. -/
theorem add_ofNat_succ_mul (v q : Word) (i : Nat) :
    v + BitVec.ofNat 32 (i + 1) * q = add32 (v + BitVec.ofNat 32 i * q) q := by
  rw [add32, BitVec.ofNat_add, BitVec.add_mul, BitVec.one_mul, BitVec.add_assoc]

/-- Word `i` of the progression lies `i` times `Q` above the first. -/
theorem progression_getElem? {n i : Nat} (hi : i < n) (v : Word) :
    (progression n v)[i]? = some (v + BitVec.ofNat 32 i * magicQ) := by
  induction n generalizing i v with
  | zero => omega
  | succ n ih =>
    cases i with
    | zero => rw [BitVec.zero_mul, BitVec.add_zero, progression, List.getElem?_cons_zero]
    | succ i =>
      rw [progression, List.getElem?_cons_succ, ih (Nat.lt_of_succ_lt_succ hi), add_ofNat_succ_mul, add32, add32,
        add_right_comm]

/-- A word of the progression is followed by itself plus `Q`. -/
theorem progression_getElem?_succ {n i : Nat} {u v : Word} (hi : i + 1 < n) (h : (progression n u)[i]? = some v) :
    (progression n u)[i + 1]? = some (add32 v magicQ) := by
  rw [progression_getElem? (Nat.lt_of_succ_lt hi)] at h
  obtain rfl := Option.some.inj h
  rw [progression_getElem? hi, add_ofNat_succ_mul]

/-- Settles O27: the initial table is the progression of `T` words from `P`. -/
theorem initialTableIsProgression : Obligations.InitialTableIsProgression := by
  intro c
  exact ⟨progression_length _ _, rfl, fun i v hi h => progression_getElem?_succ hi h,
    fun i hi => progression_getElem? hi magicP⟩

/-! ### The mixing iteration (R94) -/

section MixingStep

variable (c : Configuration) (x : KeyExpander)

/-- Lines 1 and 2: the new accumulator `a`. -/
theorem mixStep_a : (mixStep c x).a = rotl32 (add32 (add32 (entry x.S x.i) x.a) x.b) 3 := rfl

/-- Line 1: the table holds the new `a` under the cursor. -/
theorem mixStep_S : (mixStep c x).S = setEntry x.S x.i (mixStep c x).a := rfl

/-- Lines 3 and 4: the new accumulator `b`, from the new `a` and the old `b`. -/
theorem mixStep_b :
    (mixStep c x).b = rotl32 (add32 (add32 (entry x.L x.j) (mixStep c x).a) x.b)
      ((add32 (mixStep c x).a x.b).toNat % 32) := rfl

/-- Line 3: the key words hold the new `b` under the cursor. -/
theorem mixStep_L : (mixStep c x).L = setEntry x.L x.j (mixStep c x).b := rfl

end MixingStep

theorem setEntry_getElem?_ne (file : List Word) {n m : Nat} (h : m ≠ n) (v : Word) :
    (setEntry file n v)[m]? = file[m]? :=
  List.getElem?_set_ne h.symm

/-- Settles O28: the entries under the two cursors hold the new accumulators, and no other is written. -/
theorem mixingIterationRule : Obligations.MixingIterationRule := by
  refine ⟨fun c x hi hj => ⟨_, rfl, ?_⟩, fun _ _ => ⟨rfl, rfl, rfl, rfl⟩⟩
  have ha : entry (mixStep c x).S x.i = (mixStep c x).a := by rw [mixStep_S, entry_setEntry_self hi]
  have hb : entry (mixStep c x).L x.j = (mixStep c x).b := by rw [mixStep_L, entry_setEntry_self hj]
  exact ⟨ha.trans (mixStep_a c x), fun n hn => setEntry_getElem?_ne x.S hn _, ha.symm,
    hb.trans (mixStep_b c x), fun n hn => setEntry_getElem?_ne x.L hn _, hb.symm, mixStep_i c x, mixStep_j c x⟩

/-! ### KEYLOAD as a whole (R90, R95 to R101) -/

/-- After `k` iterations the table cursor has wrapped to `k mod T`. -/
theorem mixSteps_mixStart_i (c : Configuration) (key : List Byte) (k : Nat) :
    (mixSteps c k (mixStart c key)).i = k % c.T := by
  induction k with
  | zero => exact (Nat.zero_mod _).symm
  | succ k ih => rw [mixSteps_succ, mixStep_i, ih, Nat.mod_add_mod]

/-- After `k` iterations the key cursor has wrapped to `k mod C`. -/
theorem mixSteps_mixStart_j (c : Configuration) (key : List Byte) (k : Nat) :
    (mixSteps c k (mixStart c key)).j = k % c.C := by
  induction k with
  | zero => exact (Nat.zero_mod _).symm
  | succ k ih => rw [mixSteps_succ, mixStep_j, ih, Nat.mod_add_mod]

/-- Settles O30: the tables, key words and accumulators are those of the expander after `k` iterations. -/
theorem keyloadExpandsTheKey : Obligations.KeyloadExpandsTheKey := by
  intro s c key hb hlegal hreset hst hkey
  obtain ⟨hlength, -, -, hwords⟩ := initialTableIsProgression c
  obtain ⟨hLlength, hLwords⟩ := packedKeyIsLittleEndian s.lenw c key hlegal hkey
  rw [keyWords_eq] at hLlength hLwords
  refine ⟨fun k => (mixSteps c k (mixStart c key)).S, fun k => (mixSteps c k (mixStart c key)).L,
    fun k => (mixSteps c k (mixStart c key)).a, fun k => (mixSteps c k (mixStart c key)).b,
    ⟨hlength, hwords⟩, ⟨hLlength, hLwords⟩, rfl, rfl, fun k _ => ?_,
    _, exec_keyload_loads hb ((acceptsKeyload_iff s).2 ⟨hreset, hst⟩) hkey, rfl, rfl⟩
  dsimp only
  rw [← tableSize_eq, ← keyWords_eq, ← mixSteps_mixStart_i c key k, ← mixSteps_mixStart_j c key k, mixSteps_succ]
  exact ⟨mixStep_a c _, mixStep_S c _, mixStep_b c _, mixStep_L c _⟩

/-- Settles O31: both cores hold the expander of the configuration and the key. -/
theorem keyloadDependsOnKeyOnly : Obligations.KeyloadDependsOnKeyOnly := by
  intro s s' c key hb hb' hreset hreset' hst hst' hkey
  exact ⟨_, _, exec_keyload_loads hb ((acceptsKeyload_iff s).2 ⟨hreset, hst⟩) hkey,
    exec_keyload_loads hb' ((acceptsKeyload_iff s').2 ⟨hreset', hst'⟩) hkey, rfl, rfl, rfl, rfl⟩

/-- Settles O32: the length is checked before anything is written, and an error writes only its response. -/
theorem wrongKeyLengthChangesNothing : Obligations.WrongKeyLengthChangesNothing := by
  intro s c key hb hreset hst hkey
  exact exec_keyload_rejects hb ((acceptsKeyload_iff s).2 ⟨hreset, hst⟩) hkey

end Sys2Proof.Machine
end

section
/-! PROOFS. The block cipher (42_block_cipher.md): the rounds and their inverses (R112, R113), the bytes of a block
(R110, R111), ENCRYPT and DECRYPT as wholes, the round trip (R117), and what block commands leave unchanged (R114 to
R116, R118). -/

namespace Sys2Proof.Machine

/-! ### Half-rounds, rounds and whitening undo each other (R110 to R113) -/

section Inverses

variable (x y key : Word) (S : List Word) (AB : Word × Word)

@[simp] theorem sub32_add32 : sub32 (add32 x y) y = x := BitVec.add_sub_cancel x y

@[simp] theorem add32_sub32 : add32 (sub32 x y) y = x := BitVec.sub_add_cancel x y

@[simp] theorem xor32_xor32 : xor32 (xor32 x y) y = x := by
  rw [xor32, xor32, BitVec.xor_assoc, BitVec.xor_self, BitVec.xor_zero]

@[simp] theorem decHalf_encHalf : decHalf (encHalf x y key) y key = x := by
  rw [decHalf, encHalf, sub32_add32, rotr32_rotl32, xor32_xor32]

@[simp] theorem encHalf_decHalf : encHalf (decHalf x y key) y key = x := by
  rw [encHalf, decHalf, xor32_xor32, rotl32_rotr32, add32_sub32]

/-! The two assignments of a round, in their order: what is written first is used by the second. -/

theorem encRound_fst (r : Nat) : (encRound S r AB).1 =
    add32 (rotl32 (xor32 AB.1 AB.2) (AB.2.toNat % 32)) (entry S (2 * r)) := rfl

theorem encRound_snd (r : Nat) : (encRound S r AB).2 =
    add32 (rotl32 (xor32 AB.2 (encRound S r AB).1) ((encRound S r AB).1.toNat % 32)) (entry S (2 * r + 1)) := rfl

theorem decRound_snd (r : Nat) : (decRound S r AB).2 =
    xor32 (rotr32 (sub32 AB.2 (entry S (2 * r + 1))) (AB.1.toNat % 32)) AB.1 := rfl

theorem decRound_fst (r : Nat) : (decRound S r AB).1 =
    xor32 (rotr32 (sub32 AB.1 (entry S (2 * r))) ((decRound S r AB).2.toNat % 32)) (decRound S r AB).2 := rfl

/-- A round's inverse undoes the second half first, with the `A` that half used. -/
@[simp] theorem decRound_encRound (r : Nat) : decRound S r (encRound S r AB) = AB := by
  simp only [decRound, encRound, decHalf_encHalf]

@[simp] theorem encRound_decRound (r : Nat) : encRound S r (decRound S r AB) = AB := by
  simp only [encRound, decRound, encHalf_decHalf]

@[simp] theorem unwhiten_whiten : unwhiten S (whiten S AB) = AB := by
  rw [unwhiten, whiten, sub32_add32, sub32_add32]

@[simp] theorem whiten_unwhiten : whiten S (unwhiten S AB) = AB := by
  rw [whiten, unwhiten, add32_sub32, add32_sub32]

@[simp] theorem decRounds_encRounds (n : Nat) : decRounds S n (encRounds S n AB) = AB := by
  induction n with
  | zero => rfl
  | succ n ih => rw [decRounds_succ, encRounds_succ, decRound_encRound, ih]

@[simp] theorem encRounds_decRounds (n : Nat) : encRounds S n (decRounds S n AB) = AB := by
  induction n generalizing AB with
  | zero => rfl
  | succ n ih => rw [encRounds_succ, decRounds_succ, ih, encRound_decRound]

theorem decryptWords_encryptWords (c : Configuration) : decryptWords c S (encryptWords c S AB) = AB := by
  rw [decryptWords, encryptWords, decRounds_encRounds, unwhiten_whiten]

theorem encryptWords_decryptWords (c : Configuration) : encryptWords c S (decryptWords c S AB) = AB := by
  rw [encryptWords, decryptWords, whiten_unwhiten, encRounds_decRounds]

end Inverses

/-- Settles O33: the two half-rounds, in their order. -/
theorem encryptionRoundRule : Obligations.EncryptionRoundRule := by
  intro S r A B
  exact ⟨_, _, rfl, encRound_fst S (A, B) r, encRound_snd S (A, B) r⟩

/-- Settles O34: the two half-rounds in their order, and each half-round undoes its counterpart. -/
theorem decryptionRoundUndoesEncryptionRound : Obligations.DecryptionRoundUndoesEncryptionRound := by
  intro S r A B
  exact ⟨⟨_, _, rfl, decRound_snd S (A, B) r, decRound_fst S (A, B) r⟩, decRound_encRound S (A, B) r,
    encRound_decRound S (A, B) r⟩

/-! ### The bytes of a block (20_memory.md R42, R43) -/

/-- A write leaves the bytes below it. -/
theorem byteAt_memWrite_of_lt {buf : List Byte} {off m : Nat} (v : Word) (h : off + 4 ≤ buf.length) (hm : m < off) :
    byteAt (memWrite buf off v) m = byteAt buf m := by
  rw [byteAt, byteAt, List.getD_eq_getElem?_getD, List.getD_eq_getElem?_getD, memWrite_getElem? v h, if_neg (by omega)]

/-- A write leaves a word that ends below it. -/
theorem memRead_memWrite_of_le {buf : List Byte} {off m : Nat} (v : Word) (h : off + 4 ≤ buf.length)
    (hm : m + 4 ≤ off) : memRead (memWrite buf off v) m = memRead buf m := by
  simp only [memRead]
  rw [byteAt_memWrite_of_lt v h (by omega), byteAt_memWrite_of_lt v h (by omega),
    byteAt_memWrite_of_lt v h (by omega), byteAt_memWrite_of_lt v h (by omega)]

/-- A byte of a word that was read is the byte it was read from. -/
theorem wordByte_memRead (buf : List Byte) (off : Nat) {n : Nat} (hn : n < 4) :
    wordByte (memRead buf off) n = byteAt buf (off + n) := by
  have h0 := (byteAt buf off).isLt
  have h1 := (byteAt buf (off + 1)).isLt
  have h2 := (byteAt buf (off + 2)).isLt
  have h3 := (byteAt buf (off + 3)).isLt
  apply BitVec.eq_of_toNat_eq
  rw [wordByte_eq_ofNat, memRead_toNat, BitVec.toNat_ofNat]
  obtain rfl | rfl | rfl | rfl : n = 0 ∨ n = 1 ∨ n = 2 ∨ n = 3 := by omega
  · rw [Nat.add_zero off]
    omega
  all_goals omega

theorem loadBlock_storeBlock (AB : Word × Word) : loadBlock (storeBlock AB) = AB := by
  have hA : memRead (storeBlock AB) 0 = AB.1 := by
    rw [storeBlock, memRead_memWrite_of_le _ (by simp) (by decide), memRead_memWrite _ (by simp)]
  have hB : memRead (storeBlock AB) 4 = AB.2 := memRead_memWrite _ (by simp)
  rw [loadBlock, hA, hB]

theorem storeBlock_loadBlock {din : List Byte} (h : din.length = 8) : storeBlock (loadBlock din) = din := by
  have hbytes : storeBlock (loadBlock din) = (List.range 8).map (byteAt din) := by
    simp [loadBlock, storeBlock_eq, List.range_succ, wordByte_memRead]
  rw [hbytes]
  refine List.ext_getElem (by simp [h]) fun n hn hn' => ?_
  simp [byteAt, hn']

/-! ### Accepted block commands (R110, R111, R114) -/

section Accepted

variable {s : State} {c : Configuration} {din : List Byte} (hb : s.build = .built c) (ha : s.acceptsBlock = true)
  (f : Configuration → List Word → Word × Word → Word × Word) (lastRound : Configuration → Nat)

include hb ha

/-- An accepted block operation of 8 bytes answers the transformed block. -/
theorem blockOp_transforms (hl : din.length = 8) :
    blockOp f lastRound din s = .next ((s.setDatapath
      { A := (f c s.kx.S (loadBlock din)).1, B := (f c s.kx.S (loadBlock din)).2, r := lastRound c }).answered
        { status := .ok, data := storeBlock (f c s.kx.S (loadBlock din)) }) := by
  rw [blockOp_built hb, if_pos ha, if_neg (not_not.2 hl), respond_eq]

/-- An accepted block operation of any other length raises its error and no more. -/
theorem blockOp_rejects (hl : din.length ≠ 8) :
    blockOp f lastRound din s = .next (s.answered { status := .error .invalidPlainTextSize, data := [] }) := by
  rw [blockOp_built hb, if_pos ha, if_pos hl, raise_eq]

/-- An accepted block operation of 8 bytes answers `OK` and 8 bytes. -/
theorem blockOp_answers_block (hl : din.length = 8) :
    ∃ t dout, blockOp f lastRound din s = .next t ∧ t.rsp = some { status := .ok, data := dout } ∧
      dout.length = 8 :=
  ⟨_, _, blockOp_transforms hb ha f lastRound hl, rfl, storeBlock_length _⟩

/-- A block operation whose transform is undone by that of another is undone by the other: the first leaves the
table, the configuration and the engine state. -/
theorem blockOp_roundTrip (g : Configuration → List Word → Word × Word → Word × Word)
    (lastRound' : Configuration → Nat) (hgf : ∀ AB, g c s.kx.S (f c s.kx.S AB) = AB) (hl : din.length = 8) :
    ∃ t u other, blockOp f lastRound din s = .next t ∧ t.rsp = some { status := .ok, data := other } ∧
      blockOp g lastRound' other t = .next u ∧ u.rsp = some { status := .ok, data := din } := by
  obtain ⟨d, ht⟩ : ∃ d, blockOp f lastRound din s = .next ((s.setDatapath d).answered
      { status := .ok, data := storeBlock (f c s.kx.S (loadBlock din)) }) :=
    ⟨_, blockOp_transforms hb ha f lastRound hl⟩
  have hu := blockOp_transforms (s := (s.setDatapath d).answered
    { status := .ok, data := storeBlock (f c s.kx.S (loadBlock din)) }) hb ha g lastRound'
      (storeBlock_length (f c s.kx.S (loadBlock din)))
  refine ⟨_, _, _, ht, rfl, hu, ?_⟩
  simp [loadBlock_storeBlock, hgf, storeBlock_loadBlock hl]

end Accepted

/-- Settles O35: `A r` and `B r` are the data words after round `r`. -/
theorem encryptRunsTheRounds : Obligations.EncryptRunsTheRounds := by
  intro s c din hb hreset hst hl
  refine ⟨fun r => (encRounds s.kx.S r (whiten s.kx.S (loadBlock din))).1,
    fun r => (encRounds s.kx.S r (whiten s.kx.S (loadBlock din))).2, rfl, rfl, fun r hr _ => ?_,
    _, blockOp_transforms hb ((acceptsBlock_iff s).2 ⟨hreset, hst⟩) encryptWords _ hl, rfl⟩
  obtain ⟨r, rfl⟩ := Nat.exists_eq_add_of_le' hr
  exact ⟨encRound_fst _ _ (r + 1), encRound_snd _ _ (r + 1)⟩

/-- The words `W r` before decryption round `r`, for `r` from `n` down to 0.  Taken from the other end they are the
words after encryption round `r` on the last words, since a decryption round undoes the encryption round of its
number. -/
theorem exists_decRounds_words (S : List Word) (n : Nat) (AB : Word × Word) :
    ∃ W : Nat → Word × Word, W n = AB ∧ (∀ r, W r = decRound S (r + 1) (W (r + 1))) ∧
      W 0 = decRounds S n AB :=
  ⟨fun r => encRounds S r (decRounds S n AB), encRounds_decRounds S AB n,
    fun r => (decRound_encRound S (encRounds S r (decRounds S n AB)) (r + 1)).symm, rfl⟩

/-- Settles O36: `A r` and `B r` are the data words before inverse round `r`. -/
theorem decryptRunsTheInverseRounds : Obligations.DecryptRunsTheInverseRounds := by
  intro s c din hb hreset hst hl
  obtain ⟨W, hfirst, hround, hlast⟩ := exists_decRounds_words s.kx.S c.R (loadBlock din)
  have hexec := blockOp_transforms hb ((acceptsBlock_iff s).2 ⟨hreset, hst⟩) decryptWords (fun _ => 1) hl
  rw [decryptWords, ← hlast, unwhiten, storeBlock_eq] at hexec
  refine ⟨fun r => (W r).1, fun r => (W r).2, by simp only [hfirst, loadBlock], by simp only [hfirst, loadBlock],
    fun r hr _ => ?_, _, hexec, rfl⟩
  obtain ⟨r, rfl⟩ := Nat.exists_eq_add_of_le' hr
  simp only [Nat.add_sub_cancel, hround r]
  exact ⟨decRound_snd s.kx.S (W (r + 1)) (r + 1), decRound_fst s.kx.S (W (r + 1)) (r + 1)⟩

/-- Settles O37: the two transforms undo each other on the words, and the words of a block are its bytes. -/
theorem roundTrip : Obligations.RoundTrip := by
  intro s c block hb hreset hst hl
  have ha : s.acceptsBlock = true := (acceptsBlock_iff s).2 ⟨hreset, hst⟩
  exact ⟨blockOp_roundTrip hb ha encryptWords _ decryptWords _ (decryptWords_encryptWords s.kx.S · c) hl,
    blockOp_roundTrip hb ha decryptWords _ encryptWords _ (encryptWords_decryptWords s.kx.S · c) hl⟩

/-- Settles O38: the error writes only the response and the port, so the core is still `READY`. -/
theorem wrongBlockSizeLeavesEngineUsable : Obligations.WrongBlockSizeLeavesEngineUsable := by
  intro s c din hb hreset hst hl
  have ha : s.acceptsBlock = true := (acceptsBlock_iff s).2 ⟨hreset, hst⟩
  exact ⟨_, blockOp_rejects hb ha encryptWords _ hl, blockOp_rejects hb ha decryptWords _ hl, rfl, fun good hgood =>
    ⟨blockOp_answers_block (s := s.answered _) hb ha encryptWords _ hgood,
      blockOp_answers_block (s := s.answered _) hb ha decryptWords _ hgood⟩⟩

/-! ### What block commands leave unchanged (R115, R116, R118) -/

/-- Settles O39: whatever the length, the state of the engine is looked at first. -/
theorem blockCommandWaitsUntilKeyed : Obligations.BlockCommandWaitsUntilKeyed := by
  intro s c din hb hst
  exact exec_block_waits hb hst din

/-- A block operation that answers a next state waited, or was accepted and wrote its datapath and its answer. -/
theorem blockOp_writes {f : Configuration → List Word → Word × Word → Word × Word} {lastRound : Configuration → Nat}
    {din : List Byte} {s t : State} (h : blockOp f lastRound din s = .next t) :
    ∃ c, s.build = .built c ∧
      ((s.acceptsBlock = false ∧ t = s) ∨ (s.acceptsBlock = true ∧ ∃ d ρ, t = (s.setDatapath d).answered ρ)) := by
  obtain ⟨c, hb, ⟨ha, rfl⟩ | ⟨ha, -, rfl⟩ | ⟨ha, -, rfl⟩⟩ := blockOp_cases h
  · exact ⟨c, hb, .inl ⟨ha, rfl⟩⟩
  · exact ⟨c, hb, .inr ⟨ha, s.dp, _, rfl⟩⟩
  · exact ⟨c, hb, .inr ⟨ha, _, _, rfl⟩⟩

/-- The same of either block command. -/
theorem exec_block_writes {i : Instr} (hi : ∃ din, i = .encrypt din ∨ i = .decrypt din) {s t : State}
    (h : exec i s = .next t) :
    ∃ c, s.build = .built c ∧
      ((s.acceptsBlock = false ∧ t = s) ∨ (s.acceptsBlock = true ∧ ∃ d ρ, t = (s.setDatapath d).answered ρ)) := by
  obtain ⟨din, rfl | rfl⟩ := hi
  · exact blockOp_writes h
  · exact blockOp_writes h

/-- Two cores on which the transform is the same function answer a block operation alike. -/
theorem blockOp_same_response {s s' : State} {c c' : Configuration} (hb : s.build = .built c)
    (hb' : s'.build = .built c') (ha : s.acceptsBlock = true) (ha' : s'.acceptsBlock = true)
    {f : Configuration → List Word → Word × Word → Word × Word} (hf : f c s.kx.S = f c' s'.kx.S)
    (lastRound : Configuration → Nat) (din : List Byte) :
    ∃ t t', blockOp f lastRound din s = .next t ∧ blockOp f lastRound din s' = .next t' ∧ t.rsp = t'.rsp := by
  by_cases hl : din.length = 8
  · refine ⟨_, _, blockOp_transforms hb ha f lastRound hl, blockOp_transforms hb' ha' f lastRound hl, ?_⟩
    rw [State.answered_rsp, State.answered_rsp, hf]
  · exact ⟨_, _, blockOp_rejects hb ha f lastRound hl, blockOp_rejects hb' ha' f lastRound hl, rfl⟩

/-- Settles O40: of a configuration the two transforms use `R` only. -/
theorem blockCommandsHaveNoSideEffects : Obligations.BlockCommandsHaveNoSideEffects := by
  intro i hi
  refine ⟨fun s t h => ?_, fun s s' c c' hb hb' hR hreset hreset' hst hst' hS => ?_⟩
  · obtain ⟨-, -, ⟨-, rfl⟩ | ⟨-, d, ρ, rfl⟩⟩ := exec_block_writes hi h
    · rfl
    · rfl
  · have ha : s.acceptsBlock = true := (acceptsBlock_iff s).2 ⟨hreset, hst⟩
    have ha' : s'.acceptsBlock = true := (acceptsBlock_iff s').2 ⟨hreset', hst'⟩
    have henc : encryptWords c s.kx.S = encryptWords c' s'.kx.S := by
      funext AB
      rw [encryptWords, encryptWords, hR, hS]
    have hdec : decryptWords c s.kx.S = decryptWords c' s'.kx.S := by
      funext AB
      rw [decryptWords, decryptWords, hR, hS]
    obtain ⟨din, rfl | rfl⟩ := hi
    · exact blockOp_same_response hb hb' ha ha' henc _ din
    · exact blockOp_same_response hb hb' ha ha' hdec _ din

/-- Settles O41: what waited waits again, and an accepted command leaves all that the answer depends on. -/
theorem repeatedBlockCommandRepeatsItsOutput : Obligations.RepeatedBlockCommandRepeatsItsOutput := by
  intro i j hi hj s t h
  obtain ⟨c, hb, ⟨ha, rfl⟩ | ⟨ha, -⟩⟩ := exec_block_writes hi h
  · refine ⟨⟨_, h, rfl⟩, fun u hu => ?_⟩
    obtain ⟨-, -, ⟨-, rfl⟩ | ⟨ha', -⟩⟩ := exec_block_writes hj hu
    · exact ⟨_, h, rfl⟩
    · exact absurd ha' (by simp [ha])
  · obtain ⟨ρ, hρ⟩ := exec_block_answers hi c s.kx.S
    have hrepeats : ∀ u : State, u.build = .built c → u.acceptsBlock = true → u.kx.S = s.kx.S →
        ∃ v, exec i u = .next v ∧ v.rsp = some ρ := fun u hbu hau hSu => by
      obtain ⟨d, hv⟩ := hρ u hbu hau hSu
      exact ⟨_, hv, rfl⟩
    obtain ⟨d, ht⟩ := hρ s hb ha rfl
    obtain rfl := Host.Outcome.next.inj (h.symm.trans ht)
    refine ⟨hrepeats _ hb ha rfl, fun u hu => ?_⟩
    obtain ⟨-, -, ⟨-, rfl⟩ | ⟨-, e, σ, rfl⟩⟩ := exec_block_writes hj hu
    · exact hrepeats _ hb ha rfl
    · exact hrepeats _ hb ha rfl

/-! ### A block command before a key (R155) -/

/-- A step that changes nothing can be taken any number of times. -/
theorem runSteps_of_step_eq_self {s : State} (h : step s = .next s) (n : Nat) : runSteps n s = .next s := by
  induction n with
  | zero => rfl
  | succ n ih => rw [runSteps, h]; exact ih

/-- Settles O53: the host holds, and the core serves the same frame again, which waits. -/
theorem blockCommandBeforeKeyIsStuck : Obligations.BlockCommandBeforeKeyIsStuck := by
  intro s c f i n hi hb hst hhost hport hd
  have hstay : exec i s = .next s := exec_block_stays hi hb (by simp [hst])
  exact runSteps_of_step_eq_self ((step_host_nil hhost).trans ((serve_frame hport hd).trans hstay)) n

end Sys2Proof.Machine
end

section
/-! PROOFS. Exceptions (60_exceptions.md): a command is all or nothing (R130, R135, R139). -/

namespace Sys2Proof.Machine

/-- A KEYLOAD that answers a next state waited, raised its error, or loaded the key. -/
theorem execKeyload_all_or_nothing {key : List Byte} {s t : State} (h : execKeyload key s = .next t) :
    t = s ∨ t = s.answered { status := .error .unsupportedKeyLength, data := [] } ∨
      (t.rsp = some { status := .ok, data := [] } ∧ t.port = none ∧ t.st = .ready) := by
  obtain ⟨c, -, ⟨-, rfl⟩ | ⟨-, -, rfl⟩ | ⟨-, -, rfl⟩⟩ := execKeyload_cases h
  · exact .inl rfl
  · exact .inr (.inl rfl)
  · exact .inr (.inr ⟨rfl, rfl, rfl⟩)

/-- A block operation that answers a next state waited, raised its error, or answered a whole block. -/
theorem blockOp_all_or_nothing {f : Configuration → List Word → Word × Word → Word × Word}
    {lastRound : Configuration → Nat} {din : List Byte} {s t : State} (h : blockOp f lastRound din s = .next t) :
    t = s ∨ t = s.answered { status := .error .invalidPlainTextSize, data := [] } ∨
      ∃ dout, dout.length = 8 ∧ t.rsp = some { status := .ok, data := dout } ∧ t.port = none := by
  obtain ⟨c, -, ⟨-, rfl⟩ | ⟨-, -, rfl⟩ | ⟨-, -, rfl⟩⟩ := blockOp_cases h
  · exact .inl rfl
  · exact .inr (.inl rfl)
  · exact .inr (.inr ⟨_, storeBlock_length _, rfl, rfl⟩)

/-- Settles O44: the waiting, the raising and the succeeding branch of each command are the three outcomes. -/
theorem outputsAreAllOrNothing : Obligations.OutputsAreAllOrNothing := by
  refine ⟨fun key s t h => execKeyload_all_or_nothing h, fun i s t hi h => ?_⟩
  obtain ⟨din, rfl | rfl⟩ := hi
  · exact blockOp_all_or_nothing h
  · exact blockOp_all_or_nothing h

end Sys2Proof.Machine
end

section
/-! PROOFS. Reset (70_reset_and_hazards.md): the two steps in which the host asserts and releases it (R150 to R152),
and what a core held in reset accepts (R150). -/

namespace Sys2Proof.Machine

/-! ### The two steps of a reset (R150 to R152) -/

/-- The step in which the host asserts reset abandons what the port holds and writes no register. -/
theorem step_host_assertReset {s : State} {rest : List HostAction} (h : s.host = .assertReset :: rest) :
    step s = .next { s with inReset := true, port := none, host := rest } := by
  have ha : s.action = .assertReset := by rw [State.action, h]; rfl
  rw [step, ha, State.dropAction, h]
  rfl

/-- The step in which the host releases reset gives the reset state of a core that was held in it. -/
theorem step_host_releaseReset {s : State} {c : Configuration} {rest : List HostAction} (hb : s.build = .built c)
    (hreset : s.inReset = true) (h : s.host = .releaseReset :: rest) :
    step s = .next (State.afterReset c { s with inReset := false, host := rest }) := by
  have ha : s.action = .releaseReset := by rw [State.action, h]; rfl
  rw [step_releaseReset ha, State.releaseReset_built s.dropAction hreset hb, State.dropAction, h]
  rfl

/-- Settles O19: the first step frees the port, so the second starts with nothing pending. -/
theorem resetAbandonsTheCommand : Obligations.ResetAbandonsTheCommand := by
  intro s c rest hb hhost
  have hrelease := step_host_releaseReset (c := c) (rest := rest)
    (s := { s with inReset := true, port := none, host := .releaseReset :: rest }) hb rfl rfl
  exact ⟨_, _, step_host_assertReset hhost, rfl, hrelease, rfl, freeWords_length _ _, freeWords_length _ _⟩

/-! ### What is not accepted waits (R70, R150) -/

theorem exec_keyload_waits {s : State} {c : Configuration} (hb : s.build = .built c) (ha : s.acceptsKeyload ≠ true)
    (key : List Byte) : exec (.keyload key) s = .next s := by
  rw [exec_keyload, execKeyload_built hb, if_neg ha, wait_eq]

theorem blockOp_waits_of_not_accepted {s : State} {c : Configuration} (hb : s.build = .built c)
    (ha : s.acceptsBlock ≠ true) (f : Configuration → List Word → Word × Word → Word × Word)
    (lastRound : Configuration → Nat) (din : List Byte) : blockOp f lastRound din s = .next s := by
  rw [blockOp_built hb, if_neg ha, wait_eq]

/-- Settles O20: a core held in reset accepts neither a key nor a block. -/
theorem assertedResetAcceptsNothing : Obligations.AssertedResetAcceptsNothing := by
  intro s c payload hb hreset
  have hkey : s.acceptsKeyload ≠ true := by simp [hreset]
  have hblock : s.acceptsBlock ≠ true := by simp [hreset]
  exact ⟨exec_keyload_waits hb hkey payload, blockOp_waits_of_not_accepted hb hblock encryptWords _ payload,
    blockOp_waits_of_not_accepted hb hblock decryptWords _ payload⟩

end Sys2Proof.Machine
end
